-- ==== Sys2Proof/Word.lean ====
section
/-! DEFINITION. The word types of the CORE and their plainest arithmetic (spec/00_scope.md R9, R10). -/

namespace Sys2Proof

/-- One byte: a general register, a timer or a memory cell (R20, R27, R28, R50). -/
abbrev Byte := BitVec 8

/-- A 16-bit value: `pc`, `I`, a stack slot or an opcode (R22, R24, R25, R70). -/
abbrev Word := BitVec 16

/-- The 12-bit immediate `NNN` (R71). -/
abbrev Imm12 := BitVec 12

/-- The 4-bit immediate `N` (R71). -/
abbrev Nibble := BitVec 4

/-- A general register's index, V0..VF (R20). -/
abbrev Reg := Fin 16

/-- `VF`, the flag register (R21, R32). -/
abbrev Reg.flag : Reg := 15

/-- `zext_16` (R10). -/
abbrev zext16 {n : Nat} (v : BitVec n) : Word := v.zeroExtend 16

end Sys2Proof
end

