-- ==== Sys2Proof/Syntax.lean ====
section
/-! DEFINITION. The instruction set: one constructor per row of spec/opcode_table.json, carrying the decoded operand
fields (spec/30_encoding.md R74, R81), and the decoder's UNKNOWN outcome. -/

namespace Sys2Proof

/-- The 35 instructions (R74), in the order of spec/opcode_table.json. -/
inductive Instr where
  /-- 00E0 `CLS` (R181). -/
  | cls
  /-- 00EE `RET` (R101). -/
  | ret
  /-- 0NNN `SYS addr` (R100). -/
  | sys (nnn : Imm12)
  /-- 1NNN `JP addr` (R102). -/
  | jp (nnn : Imm12)
  /-- 2NNN `CALL addr` (R103). -/
  | call (nnn : Imm12)
  /-- 3XNN `SE Vx, byte` (R105). -/
  | seByte (x : Reg) (nn : Byte)
  /-- 4XNN `SNE Vx, byte` (R106). -/
  | sneByte (x : Reg) (nn : Byte)
  /-- 5XY0 `SE Vx, Vy` (R107). -/
  | seReg (x y : Reg)
  /-- 6XNN `LD Vx, byte` (R131). -/
  | ldByte (x : Reg) (nn : Byte)
  /-- 7XNN `ADD Vx, byte` (R132). -/
  | addByte (x : Reg) (nn : Byte)
  /-- 8XY0 `LD Vx, Vy` (R133). -/
  | ldReg (x y : Reg)
  /-- 8XY1 `OR Vx, Vy` (R134). -/
  | or (x y : Reg)
  /-- 8XY2 `AND Vx, Vy` (R135). -/
  | and (x y : Reg)
  /-- 8XY3 `XOR Vx, Vy` (R136). -/
  | xor (x y : Reg)
  /-- 8XY4 `ADD Vx, Vy` (R137). -/
  | addReg (x y : Reg)
  /-- 8XY5 `SUB Vx, Vy` (R138). -/
  | sub (x y : Reg)
  /-- 8XY6 `SHR Vx, Vy` (R139). -/
  | shr (x y : Reg)
  /-- 8XY7 `SUBN Vx, Vy` (R140). -/
  | subn (x y : Reg)
  /-- 8XYE `SHL Vx, Vy` (R141). -/
  | shl (x y : Reg)
  /-- 9XY0 `SNE Vx, Vy` (R108). -/
  | sneReg (x y : Reg)
  /-- ANNN `LD I, addr` (R160). -/
  | ldI (nnn : Imm12)
  /-- BNNN `JP V0, addr` (R104). -/
  | jpV0 (nnn : Imm12)
  /-- CXNN `RND Vx, byte` (R142). -/
  | rnd (x : Reg) (nn : Byte)
  /-- DXYN `DRW Vx, Vy, nibble` (R182). -/
  | drw (x y : Reg) (n : Nibble)
  /-- EX9E `SKP Vx` (R190). -/
  | skp (x : Reg)
  /-- EXA1 `SKNP Vx` (R191). -/
  | sknp (x : Reg)
  /-- FX07 `LD Vx, DT` (R192). -/
  | ldVxDt (x : Reg)
  /-- FX0A `LD Vx, K` (R193). -/
  | ldVxK (x : Reg)
  /-- FX15 `LD DT, Vx` (R194). -/
  | ldDtVx (x : Reg)
  /-- FX18 `LD ST, Vx` (R195). -/
  | ldStVx (x : Reg)
  /-- FX1E `ADD I, Vx` (R161). -/
  | addI (x : Reg)
  /-- FX29 `LD F, Vx` (R162). -/
  | ldF (x : Reg)
  /-- FX33 `LD B, Vx` (R163). -/
  | ldB (x : Reg)
  /-- FX55 `LD [I], Vx` (R164). -/
  | storeRegs (x : Reg)
  /-- FX65 `LD Vx, [I]` (R165). -/
  | loadRegs (x : Reg)
  deriving DecidableEq, Repr

/-- What the decoder answers (R81): one variant per instruction, or UNKNOWN carrying the opcode. -/
inductive Decoded where
  | instr (i : Instr)
  | unknown (op : Word)
  deriving DecidableEq, Repr

end Sys2Proof
end

