-- ==== Sys2Proof/Decode.lean ====
section
/-! DEFINITION. Field extraction and the 35-way decoder (spec/30_encoding.md R71 to R74, R77), and after it an
encoder written from the encodings of spec/opcode_table.json. -/

namespace Sys2Proof

/-- The opcode whose first byte (the lower address) is `hi` and second byte is `lo`: big-endian (R54, R72). -/
def opcodeOfBytes (hi lo : Byte) : Word := zext16 hi <<< 8 ||| zext16 lo

/-! ### Fields (R71, R73) -/

/-- `F`, the top nibble. -/
def Field.f (op : Word) : Nibble := op.extractLsb' 12 4
/-- `X`, a register index. -/
def Field.x (op : Word) : Reg := Fin.ofNat 16 (op.extractLsb' 8 4).toNat
/-- `Y`, a register index. -/
def Field.y (op : Word) : Reg := Fin.ofNat 16 (op.extractLsb' 4 4).toNat
/-- `N`. -/
def Field.n (op : Word) : Nibble := op.extractLsb' 0 4
/-- `NN`. -/
def Field.nn (op : Word) : Byte := op.extractLsb' 0 8
/-- `NNN`. -/
def Field.nnn (op : Word) : Imm12 := op.extractLsb' 0 12

/-! ### The decoder, family by family (R74) -/

/-- Family 0, told apart by the whole opcode. -/
def decodeFamily0 (op : Word) : Decoded :=
  if op = 0x00E0 then .instr .cls
  else if op = 0x00EE then .instr .ret
  else .instr (.sys (Field.nnn op))

/-- Family 5 (R107, D8). -/
def decodeFamily5 (op : Word) : Decoded :=
  if Field.n op = 0x0 then .instr (.seReg (Field.x op) (Field.y op)) else .unknown op

/-- Family 8, told apart by `N`. -/
def decodeFamily8 (op : Word) : Decoded :=
  if Field.n op = 0x0 then .instr (.ldReg (Field.x op) (Field.y op))
  else if Field.n op = 0x1 then .instr (.or (Field.x op) (Field.y op))
  else if Field.n op = 0x2 then .instr (.and (Field.x op) (Field.y op))
  else if Field.n op = 0x3 then .instr (.xor (Field.x op) (Field.y op))
  else if Field.n op = 0x4 then .instr (.addReg (Field.x op) (Field.y op))
  else if Field.n op = 0x5 then .instr (.sub (Field.x op) (Field.y op))
  else if Field.n op = 0x6 then .instr (.shr (Field.x op) (Field.y op))
  else if Field.n op = 0x7 then .instr (.subn (Field.x op) (Field.y op))
  else if Field.n op = 0xE then .instr (.shl (Field.x op) (Field.y op))
  else .unknown op

/-- Family 9 (R108, D8). -/
def decodeFamily9 (op : Word) : Decoded :=
  if Field.n op = 0x0 then .instr (.sneReg (Field.x op) (Field.y op)) else .unknown op

/-- Family E, told apart by `NN`. -/
def decodeFamilyE (op : Word) : Decoded :=
  if Field.nn op = 0x9E then .instr (.skp (Field.x op))
  else if Field.nn op = 0xA1 then .instr (.sknp (Field.x op))
  else .unknown op

/-- Family F, told apart by `NN`. -/
def decodeFamilyF (op : Word) : Decoded :=
  if Field.nn op = 0x07 then .instr (.ldVxDt (Field.x op))
  else if Field.nn op = 0x0A then .instr (.ldVxK (Field.x op))
  else if Field.nn op = 0x15 then .instr (.ldDtVx (Field.x op))
  else if Field.nn op = 0x18 then .instr (.ldStVx (Field.x op))
  else if Field.nn op = 0x1E then .instr (.addI (Field.x op))
  else if Field.nn op = 0x29 then .instr (.ldF (Field.x op))
  else if Field.nn op = 0x33 then .instr (.ldB (Field.x op))
  else if Field.nn op = 0x55 then .instr (.storeRegs (Field.x op))
  else if Field.nn op = 0x65 then .instr (.loadRegs (Field.x op))
  else .unknown op

/-- `Decode(op)` (R74): the top nibble selects the family. -/
def decode (op : Word) : Decoded :=
  if Field.f op = 0x0 then decodeFamily0 op
  else if Field.f op = 0x1 then .instr (.jp (Field.nnn op))
  else if Field.f op = 0x2 then .instr (.call (Field.nnn op))
  else if Field.f op = 0x3 then .instr (.seByte (Field.x op) (Field.nn op))
  else if Field.f op = 0x4 then .instr (.sneByte (Field.x op) (Field.nn op))
  else if Field.f op = 0x5 then decodeFamily5 op
  else if Field.f op = 0x6 then .instr (.ldByte (Field.x op) (Field.nn op))
  else if Field.f op = 0x7 then .instr (.addByte (Field.x op) (Field.nn op))
  else if Field.f op = 0x8 then decodeFamily8 op
  else if Field.f op = 0x9 then decodeFamily9 op
  else if Field.f op = 0xA then .instr (.ldI (Field.nnn op))
  else if Field.f op = 0xB then .instr (.jpV0 (Field.nnn op))
  else if Field.f op = 0xC then .instr (.rnd (Field.x op) (Field.nn op))
  else if Field.f op = 0xD then .instr (.drw (Field.x op) (Field.y op) (Field.n op))
  else if Field.f op = 0xE then decodeFamilyE op
  else decodeFamilyF op

/-- The decoder on the two bytes the fetch reads, in address order. -/
def decodeBytes (hi lo : Byte) : Decoded := decode (opcodeOfBytes hi lo)

/-- The instruction the decoder reads from the word `w` of `nbits` bits, numbered as spec/opcode_table.json numbers
them; `none` where it is UNKNOWN. The word is laid out as the CORE stores it, high byte first. -/
def decodeTableWord (nbits w : Nat) : Option Instr :=
  match decodeBytes (BitVec.ofNat 8 (w % 2 ^ nbits / 256)) (BitVec.ofNat 8 (w % 2 ^ nbits)) with
  | .instr i => some i
  | .unknown _ => none

/-! ### The encoder (spec/opcode_table.json) -/

/-- The four nibbles of an opcode, `FFFF XXXX YYYY NNNN` (R71). -/
def nibbles (f x y n : Nibble) : Word := (f ++ x ++ y ++ n : BitVec 16)
/-- The layout `f nnn`. -/
def layoutNnn (f : Nibble) (nnn : Imm12) : Word := (f ++ nnn : BitVec 16)
/-- The layout `f x nn`. -/
def layoutXnn (f : Nibble) (x : Reg) (nn : Byte) : Word := (f ++ BitVec.ofNat 4 x.val ++ nn : BitVec 16)
/-- The layout `f x y n`. -/
def layoutXyn (f : Nibble) (x y : Reg) (n : Nibble) : Word :=
  nibbles f (BitVec.ofNat 4 x.val) (BitVec.ofNat 4 y.val) n

/-- The word of an instruction, from the "encoding" column of spec/opcode_table.json. -/
def encode : Instr → Word
  | .cls => 0x00E0
  | .ret => 0x00EE
  | .sys nnn => layoutNnn 0x0 nnn
  | .jp nnn => layoutNnn 0x1 nnn
  | .call nnn => layoutNnn 0x2 nnn
  | .seByte x nn => layoutXnn 0x3 x nn
  | .sneByte x nn => layoutXnn 0x4 x nn
  | .seReg x y => layoutXyn 0x5 x y 0x0
  | .ldByte x nn => layoutXnn 0x6 x nn
  | .addByte x nn => layoutXnn 0x7 x nn
  | .ldReg x y => layoutXyn 0x8 x y 0x0
  | .or x y => layoutXyn 0x8 x y 0x1
  | .and x y => layoutXyn 0x8 x y 0x2
  | .xor x y => layoutXyn 0x8 x y 0x3
  | .addReg x y => layoutXyn 0x8 x y 0x4
  | .sub x y => layoutXyn 0x8 x y 0x5
  | .shr x y => layoutXyn 0x8 x y 0x6
  | .subn x y => layoutXyn 0x8 x y 0x7
  | .shl x y => layoutXyn 0x8 x y 0xE
  | .sneReg x y => layoutXyn 0x9 x y 0x0
  | .ldI nnn => layoutNnn 0xA nnn
  | .jpV0 nnn => layoutNnn 0xB nnn
  | .rnd x nn => layoutXnn 0xC x nn
  | .drw x y n => layoutXyn 0xD x y n
  | .skp x => layoutXnn 0xE x 0x9E
  | .sknp x => layoutXnn 0xE x 0xA1
  | .ldVxDt x => layoutXnn 0xF x 0x07
  | .ldVxK x => layoutXnn 0xF x 0x0A
  | .ldDtVx x => layoutXnn 0xF x 0x15
  | .ldStVx x => layoutXnn 0xF x 0x18
  | .addI x => layoutXnn 0xF x 0x1E
  | .ldF x => layoutXnn 0xF x 0x29
  | .ldB x => layoutXnn 0xF x 0x33
  | .storeRegs x => layoutXnn 0xF x 0x55
  | .loadRegs x => layoutXnn 0xF x 0x65

/-- The "match" and "mask" columns of an instruction's row of spec/opcode_table.json, as (match, mask). -/
def tableRow : Instr → Word × Word
  | .cls => (0x00E0, 0xFFFF)
  | .ret => (0x00EE, 0xFFFF)
  | .sys _ => (0x0000, 0xF000)
  | .jp _ => (0x1000, 0xF000)
  | .call _ => (0x2000, 0xF000)
  | .seByte _ _ => (0x3000, 0xF000)
  | .sneByte _ _ => (0x4000, 0xF000)
  | .seReg _ _ => (0x5000, 0xF00F)
  | .ldByte _ _ => (0x6000, 0xF000)
  | .addByte _ _ => (0x7000, 0xF000)
  | .ldReg _ _ => (0x8000, 0xF00F)
  | .or _ _ => (0x8001, 0xF00F)
  | .and _ _ => (0x8002, 0xF00F)
  | .xor _ _ => (0x8003, 0xF00F)
  | .addReg _ _ => (0x8004, 0xF00F)
  | .sub _ _ => (0x8005, 0xF00F)
  | .shr _ _ => (0x8006, 0xF00F)
  | .subn _ _ => (0x8007, 0xF00F)
  | .shl _ _ => (0x800E, 0xF00F)
  | .sneReg _ _ => (0x9000, 0xF00F)
  | .ldI _ => (0xA000, 0xF000)
  | .jpV0 _ => (0xB000, 0xF000)
  | .rnd _ _ => (0xC000, 0xF000)
  | .drw _ _ _ => (0xD000, 0xF000)
  | .skp _ => (0xE09E, 0xF0FF)
  | .sknp _ => (0xE0A1, 0xF0FF)
  | .ldVxDt _ => (0xF007, 0xF0FF)
  | .ldVxK _ => (0xF00A, 0xF0FF)
  | .ldDtVx _ => (0xF015, 0xF0FF)
  | .ldStVx _ => (0xF018, 0xF0FF)
  | .addI _ => (0xF01E, 0xF0FF)
  | .ldF _ => (0xF029, 0xF0FF)
  | .ldB _ => (0xF033, 0xF0FF)
  | .storeRegs _ => (0xF055, 0xF0FF)
  | .loadRegs _ => (0xF065, 0xF0FF)

end Sys2Proof
end

