-- ==== Sys2Proof/Config.lean ====
section
/-! DEFINITION. What one instance of the CORE fixes (spec/00_scope.md R6, R7) and the free value (R14, R226).
The default values stand in Machine/Params.lean. -/

namespace Sys2Proof

/-- The parameters of a model instance: the five behaviour parameters of R7, and the font's place and
bytes (R6, R242, R243, U13, U14). The place leaves room for 80 bytes below 0x1000, as R241 needs. -/
structure Params where
  /-- `SHIFT_SRC_VY`: 8XY6/8XYE shift VY into VX (D9). -/
  shiftSrcVy : Bool
  /-- `LOGIC_VF_RESET`: 8XY1/8XY2/8XY3 also write VF <- 0 (D10). -/
  logicVfReset : Bool
  /-- `JUMP_VX`: BNNN adds VX, X the top nibble of NNN (D12). -/
  jumpVx : Bool
  /-- `FX1E_VF`: FX1E writes VF (D13). -/
  fx1eVf : Bool
  /-- `LDST_INC_I`: FX55/FX65 leave I + X + 1 in I (D14). -/
  ldstIncI : Bool
  /-- `FONT_BASE` (D15). -/
  fontBase : Fin 4017
  /-- `FONT`, 16 glyphs of 5 bytes (R243). -/
  font : Vector Byte 80
  deriving DecidableEq, Repr

namespace Config

/-- The n-th random byte of the host's random source where the host's byte is not stated: a free value (R14, R142,
R226, U6). It has no body: no proof can see what it is. Marked DESIGN CHOICE in notes/assumptions/4.md. -/
opaque randomByte : Nat → Byte

end Config
end Sys2Proof
end

