-- ==== Sys2Proof/Machine/Params.lean ====
section
/-! DEFINITION. The fixed numbers of the CORE (spec/00_scope.md R6), the default parameters (R7, R243) and the reset
contents of memory (spec/10_state.md R38). -/

namespace Sys2Proof.Machine

/-- `MEM_SIZE` (R6). -/
def memSize : Nat := 4096
/-- `ENTRY`, the reset pc and the place of the program (R6, R59). -/
def entry : Nat := 0x200
/-- `MAX_PROGRAM` (R6, R244). -/
def maxProgram : Nat := memSize - entry
/-- `FB_W` (R6, R180). -/
def fbWidth : Nat := 64
/-- `FB_H` (R6, R180). -/
def fbHeight : Nat := 32

/-- The standard font, glyph 0 first (R243; general knowledge in the spec's own words, U14). -/
def defaultFont : Vector Byte 80 := #v[
  0xF0, 0x90, 0x90, 0x90, 0xF0,
  0x20, 0x60, 0x20, 0x20, 0x70,
  0xF0, 0x10, 0xF0, 0x80, 0xF0,
  0xF0, 0x10, 0xF0, 0x10, 0xF0,
  0x90, 0x90, 0xF0, 0x10, 0x10,
  0xF0, 0x80, 0xF0, 0x10, 0xF0,
  0xF0, 0x80, 0xF0, 0x90, 0xF0,
  0xF0, 0x10, 0x20, 0x40, 0x40,
  0xF0, 0x90, 0xF0, 0x90, 0xF0,
  0xF0, 0x90, 0xF0, 0x10, 0xF0,
  0xF0, 0x90, 0xF0, 0x90, 0x90,
  0xE0, 0x90, 0xE0, 0x90, 0xE0,
  0xF0, 0x80, 0x80, 0x80, 0xF0,
  0xE0, 0x90, 0x90, 0x90, 0xE0,
  0xF0, 0x80, 0xF0, 0x80, 0xF0,
  0xF0, 0x80, 0xF0, 0x80, 0x80]

/-- The parameters' default values (R7, R6; D9, D10, D12 to D15). -/
def defaultParams : Params where
  shiftSrcVy := false
  logicVfReset := false
  jumpVx := false
  fx1eVf := true
  ldstIncI := false
  fontBase := 0x050
  font := defaultFont

/-- What INIT leaves in the byte of memory at `a` (R38, R241): the font at `FONT_BASE`, zero elsewhere. This is also what
an address that `State.mem` does not list reads as. -/
def resetByte (p : Params) (a : Nat) : Byte :=
  if p.fontBase.val ≤ a then p.font.toList.getD (a - p.fontBase.val) 0 else 0

end Sys2Proof.Machine
end

