-- ==== Sys2Proof/Machine/Memory.lean ====
section
/-! DEFINITION. The byte array of the CORE (spec/10_state.md R31, spec/20_memory.md R50) as a list of (address, byte)
pairs in one canonical form: addresses strictly rising and below 0x1000, and no entry equal to what its address reads
as when unlisted. The operations here take plain addresses; masking stands in Machine/Ops.lean. -/

namespace Sys2Proof.Machine

/-- Memory: the bytes that differ from their reset contents, by rising address. -/
abbrev Memory := List Host.Cell

namespace Memory

/-- The byte at `a`; an unlisted address reads as its reset contents. -/
def read (p : Params) : Memory → Nat → Byte
  | [], a => resetByte p a
  | (k, b) :: m, a => if k = a then b else read p m a

/-- `m` with nothing listed at `a`. -/
def erase : Memory → Nat → Memory
  | [], _ => []
  | (k, b) :: m, a => if k = a then erase m a else (k, b) :: erase m a

/-- `m` with `(a, v)` listed before the first higher address. -/
def insert : Memory → Nat → Byte → Memory
  | [], a, v => [(a, v)]
  | (k, b) :: m, a, v => if a < k then (a, v) :: (k, b) :: m else (k, b) :: insert m a v

/-- `m` with the byte at `a` set to `v`; a byte equal to the reset contents is not listed. -/
def write (p : Params) (m : Memory) (a : Nat) (v : Byte) : Memory :=
  if v = resetByte p a then erase m a else insert (erase m a) a v

/-- The canonical form of a list whose addresses are at least `lo`. -/
def wfFrom (p : Params) : Nat → Memory → Bool
  | _, [] => true
  | lo, (k, b) :: m => decide (lo ≤ k) && decide (k < memSize) && b != resetByte p k && wfFrom p (k + 1) m

/-- The canonical form. -/
def wf (p : Params) (m : Memory) : Bool := wfFrom p 0 m

end Memory
end Sys2Proof.Machine
end

