-- ==== Sys2Proof/Machine/State.lean ====
section
/-! DEFINITION. The Machine State (spec/10_state.md), the records the host transactions return (spec/60_exceptions.md R211,
spec/70_reset_and_hazards.md R244), the host's transactions (R246), and the state INIT leaves (R38). -/

namespace Sys2Proof.Machine

/-- The error classes of a cycle (R210). None stops the machine (R13, R213). -/
inductive ErrorClass where
  /-- The opcode matches no defined instruction. -/
  | unknownOpcode
  /-- CALL with 16 occupied slots. -/
  | stackOverflow
  /-- RET with no occupied slot. -/
  | stackUnderflow
  /-- A fetch or data address above 0xFFF. -/
  | memoryOutOfBounds
  deriving DecidableEq, Repr

/-- The record a cycle returns to the host (R211). -/
structure CycleResult where
  /-- The set of error classes raised, bit = code. -/
  err : BitVec 4
  /-- The cycle executed FX0A and no key was pressed. -/
  waiting : Bool
  /-- `at`: pc at the start of the cycle. -/
  pcAt : Word
  /-- The fetched opcode. -/
  op : Word
  /-- `oob_addr`: the unmasked address of the first MemoryOutOfBounds of the cycle, else 0. -/
  oobAddr : BitVec 17
  deriving DecidableEq, Repr

/-- What LOAD returns (R244). -/
inductive LoadResult where
  | ok
  | programTooLarge
  deriving DecidableEq, Repr

/-- The host's transactions that change state (R246). -/
inductive Transaction where
  /-- INIT (R241). -/
  | init
  /-- LOAD of a byte sequence (R244). -/
  | load (bytes : List Byte)
  /-- CYCLE with the host's random byte (R76, R226); `none` leaves the byte free. -/
  | cycle (r : Option Byte)
  /-- TICK (R196). -/
  | tick
  /-- KEY_SET (R222). -/
  | keySet (k : Fin 16) (v : Bool)
  /-- RENDER_ACK (R225). -/
  | renderAck
  deriving DecidableEq, Repr

/-- Why a step stops with a fault. The CORE has no fatal error: every error class is recorded and the machine goes on
(R13, R213, R217), so there is no constructor. -/
inductive Fault where
  deriving DecidableEq, Repr

/-- Why a step is refused. -/
inductive Refusal where
  /-- An instruction without a meaning, raised by `exec` only; safe. No arm of `exec` raises it now. -/
  | notModelled (mnemonic : String)
  /-- A transaction other than INIT before the first INIT, raised by `transact`; safe (R240, D23, U7). -/
  | beforeInit
  deriving DecidableEq, Repr

/-- The framebuffer: 32 rows of 64 pixels, `fb[y][x]` (R30, R180). -/
abbrev Framebuffer := Vector (Vector Bool 64) 32

/-- The Machine State (R38, R40), what the last CYCLE and LOAD returned, and the model's own fields. -/
structure State where
  /-- V0..VF (R20). -/
  v : Vector Byte 16
  /-- The index register (R24). -/
  i : Word
  /-- The program counter (R22). -/
  pc : Word
  /-- The call stack's slots (R25). -/
  stack : Vector Word 16
  /-- The number of occupied slots, 0..16 (R26). -/
  sp : Fin 17
  /-- The delay timer (R27). -/
  dt : Byte
  /-- The sound timer (R28). -/
  st : Byte
  /-- The key state, true = pressed (R29). -/
  key : Vector Bool 16
  /-- The framebuffer (R30). -/
  fb : Framebuffer
  /-- Memory (R31). -/
  mem : Memory
  /-- `render_req` (R33). -/
  renderReq : Bool
  /-- `beep_req` (R34). -/
  beepReq : Bool
  /-- `err_log`, bit = error code (R35). -/
  errLog : BitVec 4
  /-- What the last cycle returned, or, during a cycle, the record being filled (R211). -/
  result : CycleResult
  /-- What the last LOAD returned (R244). -/
  loadResult : Option LoadResult
  /-- The model's own: INIT has been performed (R240). -/
  inited : Bool
  /-- The model's own: the instance's parameters (R6, R7); no step changes them. -/
  params : Params
  /-- The model's own: the host's transactions not yet performed, oldest first (R247). -/
  pending : List Transaction
  /-- The model's own: the byte the host gave the CYCLE in progress, if it stated one (R226). -/
  randomIn : Option Byte
  /-- The model's own: how many free random bytes have been drawn (`Config.randomByte`). -/
  draws : Nat
  deriving DecidableEq, Repr

/-- The empty record: nothing raised, nothing fetched. -/
def CycleResult.blank : CycleResult := { err := 0, waiting := false, pcAt := 0, op := 0, oobAddr := 0 }

/-- The state INIT leaves (R38), with the default parameters (R7) and no transaction issued. -/
def State.reset : State where
  v := Vector.replicate 16 0
  i := 0
  pc := BitVec.ofNat 16 entry
  stack := Vector.replicate 16 0
  sp := 0
  dt := 0
  st := 0
  key := Vector.replicate 16 false
  fb := Vector.replicate 32 (Vector.replicate 64 false)
  mem := []
  renderReq := false
  beepReq := false
  errLog := 0
  result := CycleResult.blank
  loadResult := none
  inited := true
  params := defaultParams
  pending := []
  randomIn := none
  draws := 0

end Sys2Proof.Machine
end

