-- ==== Sys2Proof/Machine/Ops.lean ====
section
/-! DEFINITION. The named operations over the Machine State that the instructions share: registers, program counter,
reporting an error, memory access, call stack, framebuffer cells, the random byte. -/

namespace Sys2Proof.Machine

/-! ### Registers and the program counter -/

/-- `V[r]` (R20). -/
def State.getV (s : State) (r : Reg) : Byte := s.v[r.val]

/-- `V[r] <- b` (R20). -/
def State.setV (s : State) (r : Reg) (b : Byte) : State := { s with v := s.v.set r.val b }

/-- `I <- w` (R24). -/
def State.setI (s : State) (w : Word) : State := { s with i := w }

/-- `DT <- b` (R27). -/
def State.setDt (s : State) (b : Byte) : State := { s with dt := b }

/-- `ST <- b` (R28); `beep_req` is not touched (R34). -/
def State.setSt (s : State) (b : Byte) : State := { s with st := b }

/-- `pc <- target` (R22). -/
def State.jumpTo (s : State) (target : Word) : State := { s with pc := target }

/-- `pc <- (pc + 2) mod 2^16` (R75). -/
def State.advance (s : State) : State := { s with pc := s.pc + 2 }

/-- `skip(c)` (R15): over the next two bytes when `c` holds. -/
def State.skipIf (s : State) (c : Bool) : State := { s with pc := s.pc + (if c then 4 else 2) }

/-! ### Reporting an error (R13, R210 to R213, R217)

This is all that stands in the place of taking an exception: nothing is saved, no mode changes, control does not
move, and nothing is returned from. -/

/-- The code of an error class (R210). -/
def ErrorClass.code : ErrorClass → Nat
  | .unknownOpcode => 0
  | .stackOverflow => 1
  | .stackUnderflow => 2
  | .memoryOutOfBounds => 3

/-- The bit of an error class in `err` and `err_log` (R210). -/
def ErrorClass.bit (e : ErrorClass) : BitVec 4 := BitVec.ofNat 4 (2 ^ e.code)

/-- `raise E` (R13): record `E` in the cycle's result and in the sticky log, and go on. -/
def raise (e : ErrorClass) (s : State) : State :=
  { s with
    result := { s.result with err := s.result.err ||| e.bit }
    errLog := s.errLog ||| e.bit }

/-- `raise MemoryOutOfBounds(a)` (R211): the first one of the cycle also leaves its unmasked address. -/
def raiseOutOfBounds (a : Nat) (s : State) : State :=
  raise .memoryOutOfBounds
    { s with
      result := { s.result with
        oobAddr := if s.result.err.getLsbD 3 then s.result.oobAddr else BitVec.ofNat 17 a } }

/-- `result.waiting <- true` (R193, R211). -/
def State.reportWaiting (s : State) : State := { s with result := { s.result with waiting := true } }

/-! ### Memory (R12, R52, R53) -/

/-- `a & 0xFFF` (R52). -/
def mask (a : Nat) : Nat := a &&& 0xFFF

/-- `mem[a & 0xFFF]`, reading it only. -/
def State.byteAt (s : State) (a : Nat) : Byte := Memory.read s.params s.mem (mask a)

/-- `mem[a & 0xFFF] <- v`, reporting nothing. -/
def State.setByte (s : State) (a : Nat) (v : Byte) : State :=
  { s with mem := Memory.write s.params s.mem (mask a) v }

/-- `if a > 0xFFF then raise MemoryOutOfBounds(a)`. -/
def checkAddress (a : Nat) (s : State) : State := if a > 0xFFF then raiseOutOfBounds a s else s

/-- `MemRead(a, 1)` (R52). -/
def memRead (a : Nat) (s : State) : Byte × State := (s.byteAt a, checkAddress a s)

/-- `MemWrite(a, 1, v)` (R53). -/
def memWrite (a : Nat) (v : Byte) (s : State) : State := (checkAddress a s).setByte a v

/-! ### The call stack (R25, R26, R101, R103) -/

/-- Push the address after the instruction and jump; with 16 occupied slots report and step over (R103). -/
def callTo (target : Word) (s : State) : State :=
  if h : s.sp.val < 16 then
    { s with
      stack := s.stack.set s.sp.val (s.pc + 2) h
      sp := ⟨s.sp.val + 1, Nat.succ_lt_succ h⟩
      pc := target }
  else (raise .stackOverflow s).advance

/-- Pop the top slot into pc, leaving the slot's content; with no occupied slot report and step over (R101). -/
def returnToCaller (s : State) : State :=
  if h : 0 < s.sp.val then
    { s with
      sp := ⟨s.sp.val - 1, by have := s.sp.isLt; omega⟩
      pc := s.stack[s.sp.val - 1]'(by have := s.sp.isLt; omega) }
  else (raise .stackUnderflow s).advance

/-! ### Framebuffer cells (R180) -/

/-- `fb[y][x]`, both taken modulo the grid (R182). -/
def Framebuffer.get (fb : Framebuffer) (x y : Nat) : Bool :=
  (fb[y % 32]'(Nat.mod_lt _ (by decide)))[x % 64]'(Nat.mod_lt _ (by decide))

/-- `fb[y][x] <- fb[y][x] ^ 1`, both taken modulo the grid (R182). -/
def Framebuffer.toggle (fb : Framebuffer) (x y : Nat) : Framebuffer :=
  fb.set (y % 32)
    ((fb[y % 32]'(Nat.mod_lt _ (by decide))).set (x % 64) (!fb.get x y) (Nat.mod_lt _ (by decide)))
    (Nat.mod_lt _ (by decide))

/-- The framebuffer replaced whole (R30). -/
def State.setFb (s : State) (fb : Framebuffer) : State := { s with fb := fb }

/-- `render_req <- 1` (R184). -/
def State.requestRender (s : State) : State := { s with renderReq := true }

/-- The grid with every cell 0 (R181, R241). -/
def Framebuffer.clear : Framebuffer := Vector.replicate 32 (Vector.replicate 64 false)

/-! ### The random byte (R14, R142, R226) -/

/-- `RandomByte()`: the byte the host gave with the cycle; where it gave none, a fresh free value. -/
def randomByte (s : State) : Byte × State :=
  match s.randomIn with
  | some r => (r, s)
  | none => (Config.randomByte s.draws, { s with draws := s.draws + 1 })

end Sys2Proof.Machine
end

