-- ==== Sys2Proof/Machine/Operands.lean ====
section
/-! DEFINITION. The operand forms: what an instruction computes from its fields and the state before it writes. -/

namespace Sys2Proof.Machine

/-- The effective address `I + k`, an exact integer, not masked here (R166). -/
def State.indexPlus (s : State) (k : Nat) : Nat := s.i.toNat + k

/-- The value 8XY6 and 8XYE shift: VX, or VY when `SHIFT_SRC_VY` (R139, R141). -/
def State.shiftSource (s : State) (x y : Reg) : Byte := if s.params.shiftSrcVy then s.getV y else s.getV x

/-- The register BNNN adds: V0, or VX with X = NNN[11:8] when `JUMP_VX` (R104). -/
def State.jumpBase (s : State) (nnn : Imm12) : Reg :=
  if s.params.jumpVx then Fin.ofNat 16 (nnn.extractLsb' 8 4).toNat else 0

/-- The low nibble of VX as a key index (R190, R191; D17). -/
def State.keyIndex (s : State) (x : Reg) : Fin 16 := Fin.ofNat 16 (s.getV x &&& 0xF).toNat

/-- `key[k]` (R29). -/
def State.keyDown (s : State) (k : Fin 16) : Bool := s.key[k.val]

/-- The least pressed key, if any is (R193; D18). -/
def State.leastKey (s : State) : Option (Fin 16) := (List.finRange 16).find? (fun k => s.keyDown k)

/-- `FONT_BASE + 5 * (VX & 0xF)` (R162). -/
def State.glyphAddress (s : State) (x : Reg) : Word :=
  BitVec.ofNat 16 (s.params.fontBase.val + 5 * (s.getV x &&& 0xF).toNat)

/-- The hundreds digit of a byte (R163). -/
def bcdHundreds (b : Byte) : Byte := BitVec.ofNat 8 (b.toNat / 100)
/-- The tens digit of a byte (R163). -/
def bcdTens (b : Byte) : Byte := BitVec.ofNat 8 (b.toNat / 10 % 10)
/-- The units digit of a byte (R163). -/
def bcdUnits (b : Byte) : Byte := BitVec.ofNat 8 (b.toNat % 10)

/-- `x0`, the sprite's column (R182). -/
def State.spriteX (s : State) (x : Reg) : Nat := (s.getV x).toNat % fbWidth
/-- `y0`, the sprite's row (R182). -/
def State.spriteY (s : State) (y : Reg) : Nat := (s.getV y).toNat % fbHeight

/-- The pixel of a sprite byte at column offset `c`: bit 7 - c, bit 7 leftmost (R180). -/
def spriteBit (b : Byte) (c : Nat) : Bool := b.getLsbD (7 - c)

end Sys2Proof.Machine
end

