-- ==== Sys2Proof/Machine/ControlFlow.lean ====
section
/-! DEFINITION. The control-flow instructions (spec/40_control_flow.md). -/

namespace Sys2Proof.Machine

/-- The outcome type of every meaning. -/
abbrev Result := Host.Outcome State Fault Refusal

/-- 0NNN: a no-op (R100; D7). -/
def execSys (_nnn : Imm12) (s : State) : Result := .next s.advance

/-- 00EE (R101). -/
def execRet (s : State) : Result := .next (returnToCaller s)

/-- 1NNN (R102). -/
def execJp (nnn : Imm12) (s : State) : Result := .next (s.jumpTo (zext16 nnn))

/-- 2NNN (R103). -/
def execCall (nnn : Imm12) (s : State) : Result := .next (callTo (zext16 nnn) s)

/-- BNNN (R104): the sum is not masked to 12 bits. -/
def execJpV0 (nnn : Imm12) (s : State) : Result :=
  .next (s.jumpTo (zext16 nnn + zext16 (s.getV (s.jumpBase nnn))))

/-- 3XNN (R105). -/
def execSeByte (x : Reg) (nn : Byte) (s : State) : Result := .next (s.skipIf (s.getV x == nn))

/-- 4XNN (R106). -/
def execSneByte (x : Reg) (nn : Byte) (s : State) : Result := .next (s.skipIf (s.getV x != nn))

/-- 5XY0 (R107). -/
def execSeReg (x y : Reg) (s : State) : Result := .next (s.skipIf (s.getV x == s.getV y))

/-- 9XY0 (R108). -/
def execSneReg (x y : Reg) (s : State) : Result := .next (s.skipIf (s.getV x != s.getV y))

end Sys2Proof.Machine
end

