-- ==== Sys2Proof/Machine/Flags.lean ====
section
/-! DEFINITION. Every value an instruction writes to VF as a flag (spec/10_state.md R32, spec/41_alu.md R130, R143). -/

namespace Sys2Proof.Machine

/-- A flag as a register value: 1 or 0. -/
def flagByte (c : Bool) : Byte := if c then 1 else 0

/-- `V[0xF] <- c`; the meanings call it after the result is written (R143). -/
def State.setFlag (s : State) (c : Bool) : State := s.setV Reg.flag (flagByte c)

/-- The carry of 8XY4: the exact sum exceeds 255 (R137). -/
def addCarry (a b : Byte) : Bool := decide (a.toNat + b.toNat > 255)

/-- The flag of 8XY5 and 8XY7: 1 when the minuend is at least the subtrahend (R138, R140; D11). -/
def noBorrow (minuend subtrahend : Byte) : Bool := decide (minuend.toNat ≥ subtrahend.toNat)

/-- The bit 8XY6 shifts out (R139). -/
def shrOut (b : Byte) : Bool := b.getLsbD 0

/-- The bit 8XYE shifts out (R141). -/
def shlOut (b : Byte) : Bool := b.getLsbD 7

/-- The flag of FX1E: the exact sum exceeds 0x0FFF (R161; D13). -/
def indexCarry (i : Word) (b : Byte) : Bool := decide (i.toNat + b.toNat > 0x0FFF)

/-- The VF write of 8XY1, 8XY2, 8XY3: 0 when `LOGIC_VF_RESET`, else none (R134 to R136; D10). -/
def State.logicFlag (s : State) : State := if s.params.logicVfReset then s.setFlag false else s

/-- The VF write of FX1E: only when `FX1E_VF` (R161). -/
def State.indexFlag (s : State) (c : Bool) : State := if s.params.fx1eVf then s.setFlag c else s

end Sys2Proof.Machine
end

