-- ==== Sys2Proof/Machine/Alu.lean ====
section
/-! DEFINITION. The register and ALU instructions (spec/41_alu.md). Both operands are read before any write, and VF is
written last (R143). -/

namespace Sys2Proof.Machine

/-- 6XNN (R131). -/
def execLdByte (x : Reg) (nn : Byte) (s : State) : Result := .next (s.setV x nn).advance

/-- 7XNN: no flag (R132). -/
def execAddByte (x : Reg) (nn : Byte) (s : State) : Result := .next (s.setV x (s.getV x + nn)).advance

/-- 8XY0 (R133). -/
def execLdReg (x y : Reg) (s : State) : Result := .next (s.setV x (s.getV y)).advance

/-- 8XY1 (R134). -/
def execOr (x y : Reg) (s : State) : Result := .next (s.setV x (s.getV x ||| s.getV y)).logicFlag.advance

/-- 8XY2 (R135). -/
def execAnd (x y : Reg) (s : State) : Result := .next (s.setV x (s.getV x &&& s.getV y)).logicFlag.advance

/-- 8XY3 (R136). -/
def execXor (x y : Reg) (s : State) : Result := .next (s.setV x (s.getV x ^^^ s.getV y)).logicFlag.advance

/-- 8XY4 (R137). -/
def execAddReg (x y : Reg) (s : State) : Result :=
  .next ((s.setV x (s.getV x + s.getV y)).setFlag (addCarry (s.getV x) (s.getV y))).advance

/-- 8XY5 (R138). -/
def execSub (x y : Reg) (s : State) : Result :=
  .next ((s.setV x (s.getV x - s.getV y)).setFlag (noBorrow (s.getV x) (s.getV y))).advance

/-- 8XY6 (R139). -/
def execShr (x y : Reg) (s : State) : Result :=
  .next ((s.setV x (s.shiftSource x y >>> 1)).setFlag (shrOut (s.shiftSource x y))).advance

/-- 8XY7 (R140). -/
def execSubn (x y : Reg) (s : State) : Result :=
  .next ((s.setV x (s.getV y - s.getV x)).setFlag (noBorrow (s.getV y) (s.getV x))).advance

/-- 8XYE (R141). -/
def execShl (x y : Reg) (s : State) : Result :=
  .next ((s.setV x (s.shiftSource x y <<< 1)).setFlag (shlOut (s.shiftSource x y))).advance

/-- CXNN (R142). -/
def execRnd (x : Reg) (nn : Byte) (s : State) : Result :=
  .next ((randomByte s).2.setV x ((randomByte s).1 &&& nn)).advance

end Sys2Proof.Machine
end

