-- ==== Sys2Proof/Machine/Display.lean ====
section
/-! DEFINITION. The framebuffer instructions (spec/43_display.md). -/

namespace Sys2Proof.Machine

/-- A framebuffer and the collision accumulator `col` of R182. -/
structure Drawing where
  fb : Framebuffer
  col : Bool
  deriving DecidableEq, Repr

/-- One pixel of a sprite: where the sprite's bit is 1, note a collision and toggle the cell (R182). -/
def Drawing.plot (d : Drawing) (bit : Bool) (px py : Nat) : Drawing :=
  if bit then { fb := d.fb.toggle px py, col := d.col || d.fb.get px py } else d

/-- The first `c` columns of one sprite row `b`, its left end at `(x0, py)` (R182). -/
def drawColumns (b : Byte) (x0 py : Nat) : Nat → Drawing → Drawing
  | 0, d => d
  | c + 1, d => (drawColumns b x0 py c d).plot (spriteBit b c) (x0 + c) py

/-- The first `r` rows of the sprite at I: the state after their reads, and the accumulator (R182). -/
def drawRows (x0 y0 : Nat) : Nat → State → State × Bool
  | 0, s => (s, false)
  | r + 1, s =>
    let (t, col) := drawRows x0 y0 r s
    let (b, u) := memRead (t.indexPlus r) t
    let d := drawColumns b x0 (y0 + r) 8 { fb := u.fb, col := col }
    (u.setFb d.fb, d.col)

/-- 00E0 (R181). -/
def execCls (s : State) : Result := .next (s.setFb Framebuffer.clear).requestRender.advance

/-- DXYN (R182): both coordinates are read before VF is written, and VF is written after every pixel. -/
def execDrw (x y : Reg) (n : Nibble) (s : State) : Result :=
  let (t, col) := drawRows (s.spriteX x) (s.spriteY y) n.toNat s
  .next (t.setFlag col).requestRender.advance

end Sys2Proof.Machine
end

