-- ==== Sys2Proof/Machine/IndexMemory.lean ====
section
/-! DEFINITION. The index register and the loads and stores through it (spec/42_index_memory.md). -/

namespace Sys2Proof.Machine

/-- Store V0..V(n-1) at I, I+1, ... in increasing order (R164). -/
def storeUpTo : Nat → State → State
  | 0, s => s
  | n + 1, s => memWrite (s.indexPlus n) (s.getV (Fin.ofNat 16 n)) (storeUpTo n s)

/-- Load V0..V(n-1) from I, I+1, ... in increasing order (R165). -/
def loadUpTo : Nat → State → State
  | 0, s => s
  | n + 1, s =>
    let t := loadUpTo n s
    let (b, u) := memRead (t.indexPlus n) t
    u.setV (Fin.ofNat 16 n) b

/-- `if LDST_INC_I then I <- (I + X + 1) mod 2^16` (R164, R165). -/
def State.postIncrement (s : State) (x : Reg) : State :=
  if s.params.ldstIncI then s.setI (s.i + BitVec.ofNat 16 (x.val + 1)) else s

/-- ANNN (R160). -/
def execLdI (nnn : Imm12) (s : State) : Result := .next (s.setI (zext16 nnn)).advance

/-- FX1E (R161): both operands are read before VF is written. -/
def execAddI (x : Reg) (s : State) : Result :=
  .next ((s.setI (s.i + zext16 (s.getV x))).indexFlag (indexCarry s.i (s.getV x))).advance

/-- FX29 (R162). -/
def execLdF (x : Reg) (s : State) : Result := .next (s.setI (s.glyphAddress x)).advance

/-- FX33 (R163): hundreds, tens, units, in this order. -/
def execLdB (x : Reg) (s : State) : Result :=
  .next (memWrite (s.indexPlus 2) (bcdUnits (s.getV x))
    (memWrite (s.indexPlus 1) (bcdTens (s.getV x))
      (memWrite (s.indexPlus 0) (bcdHundreds (s.getV x)) s))).advance

/-- FX55 (R164). -/
def execStoreRegs (x : Reg) (s : State) : Result := .next ((storeUpTo (x.val + 1) s).postIncrement x).advance

/-- FX65 (R165). -/
def execLoadRegs (x : Reg) (s : State) : Result := .next ((loadUpTo (x.val + 1) s).postIncrement x).advance

end Sys2Proof.Machine
end

