-- ==== Sys2Proof/Machine/TimersKeys.lean ====
section
/-! DEFINITION. The key and timer instructions (spec/44_timers_keys.md R190 to R195). -/

namespace Sys2Proof.Machine

/-- EX9E (R190). -/
def execSkp (x : Reg) (s : State) : Result := .next (s.skipIf (s.keyDown (s.keyIndex x)))

/-- EXA1 (R191). -/
def execSknp (x : Reg) (s : State) : Result := .next (s.skipIf (!s.keyDown (s.keyIndex x)))

/-- FX07 (R192). -/
def execLdVxDt (x : Reg) (s : State) : Result := .next (s.setV x s.dt).advance

/-- FX0A (R193): with no key pressed pc stays and the cycle reports `waiting`. -/
def execLdVxK (x : Reg) (s : State) : Result :=
  match s.leastKey with
  | some k => .next (s.setV x (BitVec.ofNat 8 k.val)).advance
  | none => .next s.reportWaiting

/-- FX15 (R194). -/
def execLdDtVx (x : Reg) (s : State) : Result := .next (s.setDt (s.getV x)).advance

/-- FX18 (R195): `beep_req` is not written. -/
def execLdStVx (x : Reg) (s : State) : Result := .next (s.setSt (s.getV x)).advance

end Sys2Proof.Machine
end

