-- ==== Sys2Proof/Machine/Cycle.lean ====
section
/-! DEFINITION. One cycle: fetch, decode, execute (spec/30_encoding.md R72, R76; spec/60_exceptions.md R211, R213). -/

namespace Sys2Proof.Machine

/-- The opcode at pc, reading it only: big-endian from two masked addresses (R54, R72). -/
def State.opcodeAtPc (s : State) : Word := opcodeOfBytes (s.byteAt s.pc.toNat) (s.byteAt (s.pc.toNat + 1))

/-- `Fetch()` (R72): the opcode, and the state after its two reads' reports. -/
def fetch (s : State) : Word × State :=
  let (hi, t) := memRead s.pc.toNat s
  let (lo, u) := memRead (s.pc.toNat + 1) t
  (opcodeOfBytes hi lo, u)

/-- The start of a cycle (R76): a fresh record with `at = pc`, and the random byte the host gave (R246). -/
def beginCycle (r : Option Byte) (s : State) : State :=
  { s with result := { CycleResult.blank with pcAt := s.pc }, randomIn := r }

/-- `result.op <- op` (R76). -/
def State.recordOp (s : State) (op : Word) : State := { s with result := { s.result with op := op } }

/-- The end of a cycle: a random byte the cycle did not use is gone (R226: used only by CXNN). -/
def endCycle (s : State) : State := { s with randomIn := none }

/-- UNKNOWN (R77, R144, R213): report it and step over it. -/
def execUnknown (s : State) : Result := .next (raise .unknownOpcode s).advance

/-- Execute what the decoder answered (R75, R76). -/
def execDecoded (d : Decoded) (s : State) : Result :=
  match d with
  | .instr i => exec i s
  | .unknown _ => execUnknown s

/-- Apply `f` to the next state, if there is one. -/
def mapNext (f : State → State) (r : Result) : Result :=
  match r with
  | .next s => .next (f s)
  | .fault e => .fault e
  | .refused e => .refused e

/-- The state in which the fetched instruction executes: `beginCycle`, then the fetch's reports and `result.op` (R76). -/
def fetched (r : Option Byte) (s : State) : State :=
  (fetch (beginCycle r s)).2.recordOp (fetch (beginCycle r s)).1

/-- `Cycle()` (R76), with the random byte of the transaction. -/
def cycle (r : Option Byte) (s : State) : Result :=
  mapNext endCycle (execDecoded (decode (fetch (beginCycle r s)).1) (fetched r s))

end Sys2Proof.Machine
end

