-- ==== Sys2Proof/Machine/Transactions.lean ====
section
/-! DEFINITION. The host's transactions (spec/70_reset_and_hazards.md R240 to R247, spec/44_timers_keys.md R196,
spec/60_exceptions.md R222 to R225). -/

namespace Sys2Proof.Machine

/-- INIT (R241): the reset state. What is not the CORE's own state stays: the instance's parameters, the host's
transactions to come, and the count of free bytes drawn. -/
def initMachine (s : State) : State :=
  { State.reset with params := s.params, pending := s.pending, draws := s.draws }

/-- `mem[a + k] <- bytes[k]` for every k (R244). -/
def loadBytes : Nat → List Byte → State → State
  | _, [], s => s
  | a, b :: bs, s => loadBytes (a + 1) bs (s.setByte a b)

/-- LOAD (R244): too long an image changes nothing but the answer. -/
def loadProgram (bytes : List Byte) (s : State) : State :=
  if bytes.length > maxProgram then { s with loadResult := some .programTooLarge }
  else { loadBytes entry bytes s with pc := BitVec.ofNat 16 entry, loadResult := some .ok }

/-- One timer's decrement: never below zero (R196). -/
def decrementTimer (b : Byte) : Byte := if b.toNat > 0 then b - 1 else b

/-- TICK (R196): `beep_req` is `ST > 0` after the decrement. -/
def tick (s : State) : State :=
  { s with
    dt := decrementTimer s.dt
    st := decrementTimer s.st
    beepReq := decide ((decrementTimer s.st).toNat > 0) }

/-- KEY_SET (R222). -/
def keySet (k : Fin 16) (v : Bool) (s : State) : State := { s with key := s.key.set k.val v }

/-- RENDER_ACK (R225). -/
def renderAck (s : State) : State := { s with renderReq := false }

/-- A transaction other than INIT needs a first INIT (R240; D23). -/
def whenInited (s : State) (r : Result) : Result := if s.inited then r else .refused .beforeInit

/-- One transaction (R246). -/
def transact (x : Transaction) (s : State) : Result :=
  match x with
  | .init => .next (initMachine s)
  | .load bytes => whenInited s (.next (loadProgram bytes s))
  | .cycle r => whenInited s (cycle r s)
  | .tick => whenInited s (.next (tick s))
  | .keySet k v => whenInited s (.next (keySet k v s))
  | .renderAck => whenInited s (.next (renderAck s))

/-- The host's next transaction and the state without it. With nothing issued the host runs one cycle, whose
random byte is free (R16, R247; DESIGN CHOICE, notes/assumptions/3.md). -/
def nextTransaction (s : State) : Transaction × State :=
  match s.pending with
  | [] => (.cycle none, s)
  | x :: xs => (x, { s with pending := xs })

/-- Perform the host's next transaction (R247). -/
def hostStep (s : State) : Result := transact (nextTransaction s).1 (nextTransaction s).2

/-- What the host's reads return (R246, R223, R224, R180). -/
structure HostView where
  fb : Framebuffer
  renderReq : Bool
  beepReq : Bool
  errLog : BitVec 4
  width : Nat
  height : Nat
  deriving DecidableEq, Repr

/-- The host's reads; they change nothing (R246). -/
def State.hostView (s : State) : HostView :=
  { fb := s.fb, renderReq := s.renderReq, beepReq := s.beepReq, errLog := s.errLog, width := fbWidth, height := fbHeight }

/-- `s` with the opcode `w` (of `nbits` bits, numbered as spec/opcode_table.json numbers them) stored at pc, high byte
first, and a CYCLE as the host's next transaction (DESIGN CHOICE, notes/assumptions/12.md). -/
def placeFetchWord (s : State) (nbits w : Nat) : State :=
  { (s.setByte s.pc.toNat (BitVec.ofNat 8 (w % 2 ^ nbits / 256))).setByte (s.pc.toNat + 1) (BitVec.ofNat 8 (w % 2 ^ nbits)) with
    inited := true
    pending := .cycle none :: s.pending }

end Sys2Proof.Machine
end

