-- ==== Sys2Proof/Machine/Step.lean ====
section
/-! DEFINITION. One step of the machine: the host's next transaction (spec/70_reset_and_hazards.md R246, R247). -/

namespace Sys2Proof.Machine

/-- One step (R247). -/
def step (s : State) : Host.Outcome State Fault Refusal := hostStep s

/-- `s` made ready to run the opcode `w` in its very next step. -/
def State.withFetchWord (s : State) (nbits w : Nat) : State := placeFetchWord s nbits w

end Sys2Proof.Machine
end

