-- ==== Sys2Proof/Safety.lean ====
section
/-! DEFINITION. The terms claims are stated in: parts of the state and frames, the report of a range of accesses, the
invariant, the writers of each piece of state (spec/10_state.md R40), what a program can observe (R37). -/

namespace Sys2Proof.Machine

/-! ### Parts of the state, for frames -/

/-- The cell an unmasked address reaches (R52). -/
def cell (a : Nat) : Fin 4096 := Fin.ofNat 4096 (mask a)

/-- The parts of the state: together they are all of it. -/
inductive Part where
  | v (r : Reg)
  | i
  | pc
  | stack (k : Fin 16)
  | sp
  | dt
  | st
  | key
  | fb
  | mem (a : Fin 4096)
  | renderReq
  | beepReq
  /-- `result.err`, `result.oob_addr` and `err_log`. -/
  | errors
  | waiting
  /-- `result.at` and `result.op`. -/
  | record
  | loadResult
  | inited
  | params
  | pending
  | randomIn
  | draws
  deriving DecidableEq, Repr

/-- A part is the same in `s` and in `t`. -/
def Part.same (s t : State) : Part → Prop
  | .v r => t.getV r = s.getV r
  | .i => t.i = s.i
  | .pc => t.pc = s.pc
  | .stack k => t.stack[k.val] = s.stack[k.val]
  | .sp => t.sp = s.sp
  | .dt => t.dt = s.dt
  | .st => t.st = s.st
  | .key => t.key = s.key
  | .fb => t.fb = s.fb
  | .mem a => t.byteAt a.val = s.byteAt a.val
  | .renderReq => t.renderReq = s.renderReq
  | .beepReq => t.beepReq = s.beepReq
  | .errors => t.result.err = s.result.err ∧ t.result.oobAddr = s.result.oobAddr ∧ t.errLog = s.errLog
  | .waiting => t.result.waiting = s.result.waiting
  | .record => t.result.pcAt = s.result.pcAt ∧ t.result.op = s.result.op
  | .loadResult => t.loadResult = s.loadResult
  | .inited => t.inited = s.inited
  | .params => t.params = s.params
  | .pending => t.pending = s.pending
  | .randomIn => t.randomIn = s.randomIn
  | .draws => t.draws = s.draws

/-- From `s` to `t` nothing changes but the parts listed. -/
def OnlyChanges (s t : State) (ps : List Part) : Prop := ∀ p : Part, p ∉ ps → p.same s t

/-- The cells of the `n` bytes from `a` (R166), as parts. -/
def storedCells (a n : Nat) : List Part := (List.range n).map fun k => .mem (cell (a + k))

/-! ### Reports -/

/-- From `s` to `t` the error `e` is recorded (R13, R211, R212), with nothing else of the errors changed. -/
def Reports (e : ErrorClass) (s t : State) : Prop :=
  t.result.err = s.result.err ||| e.bit ∧ t.errLog = s.errLog ||| e.bit ∧ t.result.oobAddr = s.result.oobAddr

/-- From `s` to `t` the accesses at `a .. a + n - 1`, in this order, are reported as R52, R53 and R211 say: when the
last is above 0xFFF, MemoryOutOfBounds, with the first address above 0xFFF unless the cycle had reported one before. -/
def ReportsRange (a n : Nat) (s t : State) : Prop :=
  if 0 < n ∧ a + (n - 1) > 0xFFF then
    t.result.err = s.result.err ||| 8#4 ∧ t.errLog = s.errLog ||| 8#4 ∧
      t.result.oobAddr = (if s.result.err.getLsbD 3 then s.result.oobAddr else BitVec.ofNat 17 (max a 0x1000))
  else Part.errors.same s t

/-- No error has been recorded since INIT: the premise of R212 for claims about a clean run. -/
def State.clean (s : State) : Prop := s.errLog = 0

/-! ### The invariant -/

/-- What holds in every state the machine reaches: memory is in its canonical form; the sticky log holds every class of the
last result (R212); the result's address is above 0xFFF and within the widest access when MemoryOutOfBounds is in the
result, and 0 when it is not (R211). -/
def State.Inv (s : State) : Prop :=
  Memory.wf s.params s.mem = true ∧
  s.result.err &&& s.errLog = s.result.err ∧
  (s.result.err.getLsbD 3 = false → s.result.oobAddr = 0) ∧
  (s.result.err.getLsbD 3 = true → 0xFFF < s.result.oobAddr.toNat ∧ s.result.oobAddr.toNat ≤ 0x1000E)

/-! ### What a transaction executes -/

/-- The transaction `x` on `s` is a cycle that executes the instruction `i`. -/
def Executes (x : Transaction) (s : State) (i : Instr) : Prop :=
  (∃ r, x = .cycle r) ∧ decode s.opcodeAtPc = .instr i

end Sys2Proof.Machine

namespace Sys2Proof

/-! ### What an instruction may write, access and store -/

/-- The register an instruction's `X` field names as its destination, or one of V0..VX for FX65: the first row of
R40. -/
def Instr.resultReg (i : Instr) (r : Reg) : Prop :=
  match i with
  | .ldByte x _ | .addByte x _ | .ldReg x _ | .or x _ | .and x _ | .xor x _ | .addReg x _ | .sub x _ | .shr x _
  | .subn x _ | .shl x _ | .rnd x _ | .ldVxDt x | .ldVxK x => r = x
  | .loadRegs x => r ≤ x
  | .cls | .ret | .sys _ | .jp _ | .call _ | .seByte _ _ | .sneByte _ _ | .seReg _ _ | .sneReg _ _ | .ldI _ | .jpV0 _
  | .drw _ _ _ | .skp _ | .sknp _ | .ldDtVx _ | .ldStVx _ | .addI _ | .ldF _ | .ldB _ | .storeRegs _ => False

/-- The instructions that write VF as a flag, under the parameters (R32). -/
def Instr.writesFlag (p : Params) (i : Instr) : Prop :=
  match i with
  | .addReg _ _ | .sub _ _ | .shr _ _ | .subn _ _ | .shl _ _ | .drw _ _ _ => True
  | .or _ _ | .and _ _ | .xor _ _ => p.logicVfReset = true
  | .addI _ => p.fx1eVf = true
  | .cls | .ret | .sys _ | .jp _ | .call _ | .seByte _ _ | .sneByte _ _ | .seReg _ _ | .sneReg _ _ | .ldByte _ _
  | .addByte _ _ | .ldReg _ _ | .ldI _ | .jpV0 _ | .rnd _ _ | .skp _ | .sknp _ | .ldVxDt _ | .ldVxK _ | .ldDtVx _
  | .ldStVx _ | .ldF _ | .ldB _ | .storeRegs _ | .loadRegs _ => False

/-- The instructions that write I, under the parameters (R24, R40). -/
def Instr.writesI (p : Params) (i : Instr) : Prop :=
  (∃ nnn, i = .ldI nnn) ∨ (∃ x, i = .addI x) ∨ (∃ x, i = .ldF x) ∨
    (p.ldstIncI = true ∧ ∃ x, i = .storeRegs x ∨ i = .loadRegs x)

/-- The number of bytes from I an instruction accesses (R56). -/
def Instr.accessLength (i : Instr) : Nat :=
  match i with
  | .drw _ _ n => n.toNat
  | .ldB _ => 3
  | .storeRegs x | .loadRegs x => x.val + 1
  | .cls | .ret | .sys _ | .jp _ | .call _ | .seByte _ _ | .sneByte _ _ | .seReg _ _ | .sneReg _ _ | .ldByte _ _
  | .addByte _ _ | .ldReg _ _ | .or _ _ | .and _ _ | .xor _ _ | .addReg _ _ | .sub _ _ | .shr _ _ | .subn _ _ | .shl _ _
  | .ldI _ | .jpV0 _ | .rnd _ _ | .skp _ | .sknp _ | .ldVxDt _ | .ldVxK _ | .ldDtVx _ | .ldStVx _ | .addI _ | .ldF _ => 0

/-- The number of bytes from I an instruction stores to (R56, R66). -/
def Instr.storeLength (i : Instr) : Nat :=
  match i with
  | .ldB _ => 3
  | .storeRegs x => x.val + 1
  | .drw _ _ _ | .loadRegs _ | .cls | .ret | .sys _ | .jp _ | .call _ | .seByte _ _ | .sneByte _ _ | .seReg _ _
  | .sneReg _ _ | .ldByte _ _ | .addByte _ _ | .ldReg _ _ | .or _ _ | .and _ _ | .xor _ _ | .addReg _ _ | .sub _ _ | .shr _ _
  | .subn _ _ | .shl _ _ | .ldI _ | .jpV0 _ | .rnd _ _ | .skp _ | .sknp _ | .ldVxDt _ | .ldVxK _ | .ldDtVx _ | .ldStVx _
  | .addI _ | .ldF _ => 0

end Sys2Proof

namespace Sys2Proof.Machine

/-! ### Sprites (R182) -/

/-- Whether the sprite of DXYN with coordinate registers `x`, `y` and `n` rows, drawn in `s`, has a 1 bit on the cell
`(px, py)`: the cell's offsets from the sprite's corner, with wraparound, lie in the sprite and its bit there, 7 - c of the
row's byte (R180), is 1. -/
def State.spriteCovers (s : State) (x y : Reg) (n : Nibble) (px : Fin 64) (py : Fin 32) : Bool :=
  let c := (px.val + fbWidth - s.spriteX x) % fbWidth
  let r := (py.val + fbHeight - s.spriteY y) % fbHeight
  decide (c < 8) && decide (r < n.toNat) && (s.byteAt (s.indexPlus r)).getLsbD (7 - c)

/-! ### Runs inside a call (R110) -/

/-- `Inside b s t`: `t` is reached from `s` by steps, and the stack never falls below `b` occupied slots on the way. -/
inductive Inside (b : Nat) : State → State → Prop where
  | refl (s : State) : b ≤ s.sp.val → Inside b s s
  | tail (s t u : State) : Inside b s t → step t = .next u → b ≤ u.sp.val → Inside b s u

/-- The next step of `s` is a cycle, after INIT, on the instruction `i`. -/
def NextExecutes (s : State) (i : Instr) : Prop :=
  s.inited = true ∧ Executes (nextTransaction s).1 s i

/-! ### What a program can observe (R28, R37) -/

/-- `s` and `t` differ at most in what no instruction reads: ST and the flag that follows it, `render_req`, `err_log`, the
answer of the last LOAD, and the stack slots above the stack pointer. -/
def SameToProgram (s t : State) : Prop :=
  t.v = s.v ∧ t.i = s.i ∧ t.pc = s.pc ∧ t.sp = s.sp ∧
  (∀ k : Fin 16, k.val < s.sp.val → t.stack[k.val] = s.stack[k.val]) ∧
  t.dt = s.dt ∧ t.key = s.key ∧ t.fb = s.fb ∧ t.mem = s.mem ∧ t.result = s.result ∧
  t.inited = s.inited ∧ t.params = s.params ∧ t.pending = s.pending ∧ t.randomIn = s.randomIn ∧ t.draws = s.draws

end Sys2Proof.Machine
end

