-- ==== Sys2Proof/Certificates/Slice0/Obligations.lean ====
section
/-! DEFINITION. The statements for the provers. Each docstring names the rule of spec/ it formalises. `Part`, `OnlyChanges`,
`Reports`, `ReportsRange` and the other terms used here stand in Safety.lean. -/

open Sys2Proof Sys2Proof.Machine

/-! ### Encoding and decoding -/

/-- R74, R81: decoding the word of a well-formed instruction gives it back, with every operand at every value. -/
def Obligations.DecodeOfEncodeIsTheInstruction : Prop :=
  ∀ i : Instr, i.wellFormed = true → decode (encode i) = .instr i

/-- R74, R80: a word that decodes to an instruction is that instruction's one encoding, and the instruction is
well-formed. So no two words decode to one instruction and no bit of a word is dropped. -/
def Obligations.EncodeOfDecodedIsTheWord : Prop :=
  ∀ (op : Word) (i : Instr), decode op = .instr i → i.wellFormed = true ∧ encode i = op

/-- R74 (last row), R80: every word decodes to an instruction or to UNKNOWN carrying it, and UNKNOWN are exactly the
listed ones. Fields are written here as numbers, independently of the decoder's. -/
def Obligations.UnknownOpcodesAreExactlyTheListed : Prop :=
  ∀ op : Word,
    ((∃ i, decode op = .instr i) ∨ decode op = .unknown op) ∧
    (decode op = .unknown op ↔
      ((op.toNat / 0x1000 = 0x5 ∨ op.toNat / 0x1000 = 0x9) ∧ op.toNat % 0x10 ≠ 0) ∨
      (op.toNat / 0x1000 = 0x8 ∧ op.toNat % 0x10 ∈ [0x8, 0x9, 0xA, 0xB, 0xC, 0xD, 0xF]) ∨
      (op.toNat / 0x1000 = 0xE ∧ op.toNat % 0x100 ∉ [0x9E, 0xA1]) ∨
      (op.toNat / 0x1000 = 0xF ∧ op.toNat % 0x100 ∉ [0x07, 0x0A, 0x15, 0x18, 0x1E, 0x29, 0x33, 0x55, 0x65]))

/-- R71, R73: the fields are the opcode's bits as unsigned numbers. -/
def Obligations.FieldsAreTheOpcodeBits : Prop :=
  ∀ op : Word,
    (Field.f op).toNat = op.toNat / 0x1000 ∧ (Field.x op).val = op.toNat / 0x100 % 0x10 ∧
    (Field.y op).val = op.toNat / 0x10 % 0x10 ∧ (Field.n op).toNat = op.toNat % 0x10 ∧
    (Field.nn op).toNat = op.toNat % 0x100 ∧ (Field.nnn op).toNat = op.toNat % 0x1000

/-- R74: words written out from the spec's encodings decode to the instructions they stand for. -/
def Obligations.SampleWordsDecode : Prop :=
  decode 0b0000000011100000 = .instr .cls ∧
  decode 0b0000000100100011 = .instr (.sys 0x123) ∧
  decode 0b0010001000010000 = .instr (.call 0x210) ∧
  decode 0b0101000100100000 = .instr (.seReg 1 2) ∧
  decode 0b1000000100101110 = .instr (.shl 1 2) ∧
  decode 0b1101000000010101 = .instr (.drw 0 1 5) ∧
  decode 0b1110010110011110 = .instr (.skp 5) ∧
  decode 0b1111101000110011 = .instr (.ldB 10) ∧
  decode 0b0101000100100001 = .unknown 0x5121

/-! ### The cycle, errors and reports -/

/-- R75, R76, R77: where the host's next transaction is a cycle, the step executes the instruction the bytes at pc decode to,
or the UNKNOWN outcome, in a state that differs from the start by the fresh record, the fetch's report, the random byte and
the transaction taken; and the unused random byte is dropped at the end. -/
def Obligations.StepRunsTheFetchedInstruction : Prop :=
  ∀ (s : State) (r : Option Byte), s.inited = true → (nextTransaction s).1 = .cycle r →
    ∃ b : State,
      (∀ i, decode s.opcodeAtPc = .instr i → step s = mapNext endCycle (exec i b)) ∧
      (∀ op, decode s.opcodeAtPc = .unknown op → step s = mapNext endCycle (execUnknown b)) ∧
      b.pending = s.pending.tail ∧ b.randomIn = r ∧ b.result.pcAt = s.pc ∧ b.result.op = s.opcodeAtPc ∧
      b.result.waiting = false ∧ b.result.err = (if s.pc.toNat ≥ 0xFFF then 8#4 else 0#4) ∧
      b.errLog = s.errLog ||| b.result.err ∧
      OnlyChanges s b [.pending, .randomIn, .record, .waiting, .errors]

/-- R77, R213 (UnknownOpcode): an UNKNOWN opcode is reported and otherwise a no-op that advances pc by 2. -/
def Obligations.UnknownOpcodeIsReportedAndSteppedOver : Prop :=
  ∀ (op : Word) (s : State), decode op = .unknown op →
    ∃ t, execDecoded (decode op) s = .next t ∧ t.pc = s.pc + 2 ∧ Reports .unknownOpcode s t ∧
      OnlyChanges s t [.pc, .errors]

/-- R144: the 8XYn with n in 0x8..0xD, 0xF are UNKNOWN and a cycle on one writes no register. -/
def Obligations.Unused8XYnWritesNoRegister : Prop :=
  ∀ (x y : Reg) (n : Nibble) (r : Option Byte) (s : State),
    n.toNat ∈ [0x8, 0x9, 0xA, 0xB, 0xC, 0xD, 0xF] →
    s.opcodeAtPc = BitVec.ofNat 16 (0x8000 + 0x100 * x.val + 0x10 * y.val + n.toNat) →
    decode s.opcodeAtPc = .unknown s.opcodeAtPc ∧
    ∃ t, cycle r s = .next t ∧ ∀ k : Reg, t.getV k = s.getV k

/-- R72: the fetch reads the byte at pc and the byte at pc + 1, both masked, the first as the high byte; it reports an
address above 0xFFF and changes nothing else. -/
def Obligations.FetchIsBigEndianMaskedAndReported : Prop :=
  ∀ s : State,
    (fetch s).1.toNat = 0x100 * (s.byteAt s.pc.toNat).toNat + (s.byteAt (s.pc.toNat + 1)).toNat ∧
    (∀ a, s.byteAt a = s.byteAt (a % 0x1000)) ∧
    (s.pc = 0xFFF → (fetch s).1.toNat = 0x100 * (s.byteAt 0xFFF).toNat + (s.byteAt 0x000).toNat) ∧
    ReportsRange s.pc.toNat 2 s (fetch s).2 ∧
    OnlyChanges s (fetch s).2 [.errors]

/-- R211, R193: after a cycle the record holds the instruction's address and bits, and `waiting` exactly when it was FX0A
with no key pressed. -/
def Obligations.CycleRecordsAddressOpcodeAndWaiting : Prop :=
  ∀ (r : Option Byte) (s t : State), cycle r s = .next t →
    t.result.pcAt = s.pc ∧ t.result.op = s.opcodeAtPc ∧
    (t.result.waiting = true ↔
      (∃ x, decode s.opcodeAtPc = .instr (.ldVxK x)) ∧ ∀ k : Fin 16, s.keyDown k = false)

/-- R213 (causes), R211 (`oob_addr`): after a cycle each error class is in the result exactly when its cause holds, and
`oob_addr` is the first address above 0xFFF, the fetch's before the instruction's. -/
def Obligations.CycleErrorsHaveExactlyTheirCauses : Prop :=
  ∀ (r : Option Byte) (s t : State), cycle r s = .next t →
    (t.result.err.getLsbD 0 = true ↔ decode s.opcodeAtPc = .unknown s.opcodeAtPc) ∧
    (t.result.err.getLsbD 1 = true ↔ (∃ nnn, decode s.opcodeAtPc = .instr (.call nnn)) ∧ s.sp = 16) ∧
    (t.result.err.getLsbD 2 = true ↔ decode s.opcodeAtPc = .instr .ret ∧ s.sp = 0) ∧
    (t.result.err.getLsbD 3 = true ↔ s.pc.toNat ≥ 0xFFF ∨
      ∃ i, decode s.opcodeAtPc = .instr i ∧ 0 < i.accessLength ∧ s.i.toNat + (i.accessLength - 1) > 0xFFF) ∧
    (s.pc.toNat ≥ 0xFFF → t.result.oobAddr.toNat = max s.pc.toNat 0x1000) ∧
    (s.pc.toNat < 0xFFF → t.result.err.getLsbD 3 = true → t.result.oobAddr.toNat = max s.i.toNat 0x1000) ∧
    (t.result.err.getLsbD 3 = false → t.result.oobAddr = 0)

/-- R212: `err_log` accumulates every cycle's `err`, and only INIT clears it. -/
def Obligations.ErrLogAccumulatesAndOnlyInitClearsIt : Prop :=
  (∀ (r : Option Byte) (s t : State), cycle r s = .next t → t.errLog = s.errLog ||| t.result.err) ∧
  (∀ (x : Transaction) (s t : State), transact x s = .next t → x ≠ .init → s.errLog ||| t.errLog = t.errLog) ∧
  (∀ s t : State, transact .init s = .next t → t.errLog = 0)

/-! ### The whole machine -/

/-- R38, R211, R212 and the canonical form of memory (log 11): every step keeps the invariant, from every state that meets
it. -/
def Obligations.EveryStepKeepsTheInvariant : Prop :=
  ∀ s t : State, s.Inv → step s = .next t → t.Inv

/-- The reset state meets the invariant. -/
def Obligations.ResetMeetsTheInvariant : Prop := State.reset.Inv

/-- R213, R215, R248: after INIT no step stops, whatever the state and the transaction, and it stays after INIT. -/
def Obligations.EveryStepAfterInitCompletes : Prop :=
  ∀ s : State, s.inited = true → ∃ t, step s = .next t ∧ t.inited = true

/-- R240 (D23): before INIT every transaction but INIT is refused, and INIT is performed. -/
def Obligations.BeforeInitOnlyInitIsPerformed : Prop :=
  ∀ (x : Transaction) (s : State), s.inited = false →
    (x ≠ .init → transact x s = .refused .beforeInit) ∧ ∃ t, transact .init s = .next t ∧ t.inited = true

/-- R213, R220: every instruction executes to a next state in every state; none stops and none is privileged. -/
def Obligations.EveryInstructionCompletes : Prop :=
  ∀ (i : Instr) (s : State), ∃ t, exec i s = .next t

/-- The canonical form of memory (the model's own, log 11): two memories in it with equal bytes are equal. -/
def Obligations.CanonicalMemoriesWithEqualBytesAreEqual : Prop :=
  ∀ (p : Params) (m m' : Memory), Memory.wf p m = true → Memory.wf p m' = true →
    (∀ a, a < 0x1000 → Memory.read p m a = Memory.read p m' a) → m = m'

/-- R52, R53: a write at `a` stores at `a & 0xFFF` and nowhere else, a read at `a` returns the byte there, and each reports an
address above 0xFFF and goes on. -/
def Obligations.MaskedWriteThenRead : Prop :=
  ∀ (a b : Nat) (v : Byte) (s : State),
    (memWrite a v s).byteAt b = (if b % 0x1000 = a % 0x1000 then v else s.byteAt b) ∧
    OnlyChanges s (memWrite a v s) [.mem (cell a), .errors] ∧ ReportsRange a 1 s (memWrite a v s) ∧
    (memRead a s).1 = s.byteAt (a % 0x1000) ∧
    OnlyChanges s (memRead a s).2 [.errors] ∧ ReportsRange a 1 s (memRead a s).2

/-- R64, R54: bytes stored by FX55 are fetched as code afterwards, as the high byte at their address and as the low byte
at the address before. -/
def Obligations.StoredBytesAreFetched : Prop :=
  ∀ (x k : Reg) (s t : State) (p : Word), exec (.storeRegs x) s = .next t → k ≤ x →
    (p.toNat % 0x1000 = (s.i.toNat + k.val) % 0x1000 →
      (fetch (t.jumpTo p)).1.extractLsb' 8 8 = s.getV k) ∧
    ((p.toNat + 1) % 0x1000 = (s.i.toNat + k.val) % 0x1000 →
      (fetch (t.jumpTo p)).1.extractLsb' 0 8 = s.getV k)

/-- R40 (with R24, R32): each piece of state is written only by the transactions and instructions the table lists. pc has no
row here: every instruction may write it. -/
def Obligations.EachPieceOfStateHasOnlyItsWriters : Prop :=
  ∀ (x : Transaction) (s t : State), transact x s = .next t → x ≠ .init →
    (∀ r, t.getV r ≠ s.getV r → ∃ i, Executes x s i ∧ (i.resultReg r ∨ r = Reg.flag ∧ i.writesFlag s.params)) ∧
    (t.i ≠ s.i → ∃ i, Executes x s i ∧ i.writesI s.params) ∧
    (t.pc ≠ s.pc → (∃ r, x = .cycle r) ∨ ∃ bytes, x = .load bytes) ∧
    (t.stack ≠ s.stack → ∃ nnn, Executes x s (.call nnn)) ∧
    (t.sp ≠ s.sp → Executes x s .ret ∨ ∃ nnn, Executes x s (.call nnn)) ∧
    (t.dt ≠ s.dt → x = .tick ∨ ∃ r, Executes x s (.ldDtVx r)) ∧
    (t.st ≠ s.st → x = .tick ∨ ∃ r, Executes x s (.ldStVx r)) ∧
    (t.fb ≠ s.fb → Executes x s .cls ∨ ∃ a b n, Executes x s (.drw a b n)) ∧
    (t.key ≠ s.key → ∃ k v, x = .keySet k v) ∧
    (t.renderReq ≠ s.renderReq →
      (t.renderReq = true ∧ (Executes x s .cls ∨ ∃ a b n, Executes x s (.drw a b n))) ∨
      (t.renderReq = false ∧ x = .renderAck)) ∧
    (t.beepReq ≠ s.beepReq → x = .tick) ∧
    (t.errLog ≠ s.errLog → (∃ r, x = .cycle r) ∧ t.result.err ≠ 0) ∧
    t.params = s.params

/-- R66: memory is written only by FX33 and FX55, at the addresses they target, by INIT, and by LOAD, where it puts the
image. -/
def Obligations.MemoryIsWrittenOnlyByStoresInitAndLoad : Prop :=
  ∀ (x : Transaction) (s t : State) (a : Fin 4096), transact x s = .next t → t.byteAt a.val ≠ s.byteAt a.val →
    x = .init ∨
    (∃ bytes, x = .load bytes ∧ 0x200 ≤ a.val ∧ a.val < 0x200 + bytes.length ∧ bytes.length ≤ 3584) ∨
    ∃ i, Executes x s i ∧ ∃ k, k < i.storeLength ∧ a = cell (s.indexPlus k)

/-- R28, R37: ST, `beep_req`, `render_req`, `err_log` and the slots above sp have no influence on the rest: two states that
differ in them only are taken by a step to two such states. -/
def Obligations.UnreadStateHasNoInfluence : Prop :=
  ∀ s s' t : State, SameToProgram s s' → step s = .next t → ∃ t', step s' = .next t' ∧ SameToProgram t t'

/-! ### Host transactions -/

/-- R38, R243: the reset state, with the default parameters; each glyph's five bytes stand as one number, top row first. -/
def Obligations.ResetStateIsTheResetTable : Prop :=
  (∀ r, State.reset.getV r = 0) ∧ State.reset.i = 0 ∧ State.reset.pc = 0x200 ∧
  (∀ k : Fin 16, State.reset.stack[k.val] = 0) ∧ State.reset.sp = 0 ∧ State.reset.dt = 0 ∧ State.reset.st = 0 ∧
  (∀ (y : Fin 32) (x : Fin 64), State.reset.fb[y.val][x.val] = false) ∧
  (∀ k, State.reset.keyDown k = false) ∧ State.reset.renderReq = false ∧ State.reset.beepReq = false ∧
  State.reset.errLog = 0 ∧
  (∀ a, a < 0x50 ∨ (0xA0 ≤ a ∧ a < 0x1000) → State.reset.byteAt a = 0) ∧
  (List.range 16).map (fun d =>
      (List.range 5).foldl (fun acc row => 0x100 * acc + (State.reset.byteAt (0x50 + 5 * d + row)).toNat) 0) =
    [0xF0909090F0, 0x2060202070, 0xF010F080F0, 0xF010F010F0, 0x9090F01010, 0xF080F010F0, 0xF080F090F0, 0xF010204040,
      0xF090F090F0, 0xF090F010F0, 0xF090F09090, 0xE090E090E0, 0xF0808080F0, 0xE0909090E0, 0xF080F080F0, 0xF080F08080]

/-- R241: INIT, from any state, leaves the reset table, with the instance's font at the instance's font base. -/
def Obligations.InitLeavesTheResetTable : Prop :=
  ∀ s : State, ∃ t, transact .init s = .next t ∧
    (∀ r, t.getV r = 0) ∧ t.i = 0 ∧ t.pc = 0x200 ∧ (∀ k : Fin 16, t.stack[k.val] = 0) ∧ t.sp = 0 ∧ t.dt = 0 ∧ t.st = 0 ∧
    (∀ (y : Fin 32) (x : Fin 64), t.fb[y.val][x.val] = false) ∧ (∀ k, t.keyDown k = false) ∧
    t.renderReq = false ∧ t.beepReq = false ∧ t.errLog = 0 ∧
    (∀ k : Fin 80, t.byteAt (s.params.fontBase.val + k.val) = s.params.font[k.val]) ∧
    (∀ a, a < 0x1000 → (a < s.params.fontBase.val ∨ s.params.fontBase.val + 80 ≤ a) → t.byteAt a = 0) ∧
    t.params = s.params

/-- R244: LOAD copies the image to 0x200 and sets pc, or, over 3584 bytes, answers ProgramTooLarge and changes nothing. -/
def Obligations.LoadCopiesTheImageOrRejectsIt : Prop :=
  ∀ (bytes : List Byte) (s : State), s.inited = true →
    (bytes.length > 3584 →
      ∃ t, transact (.load bytes) s = .next t ∧ t.loadResult = some .programTooLarge ∧ OnlyChanges s t [.loadResult]) ∧
    (bytes.length ≤ 3584 →
      ∃ t, transact (.load bytes) s = .next t ∧ t.loadResult = some .ok ∧ t.pc = 0x200 ∧
        (∀ (k : Nat) (h : k < bytes.length), t.byteAt (0x200 + k) = bytes[k]) ∧
        OnlyChanges s t (storedCells 0x200 bytes.length ++ [.pc, .loadResult]))

/-- R196: TICK. -/
def Obligations.TickDecrementsTimersAndSetsBeep : Prop :=
  ∀ s : State, s.inited = true → ∃ t, transact .tick s = .next t ∧
    t.dt.toNat = s.dt.toNat - 1 ∧ t.st.toNat = s.st.toNat - 1 ∧
    (t.beepReq = true ↔ t.st.toNat > 0) ∧ OnlyChanges s t [.dt, .st, .beepReq]

/-- R197: after n ticks each timer is its value less n, never below zero, and `beep_req` is 1 exactly while the sound timer
has more than n left. -/
def Obligations.TimersCountDownOverTicks : Prop :=
  ∀ (n : Nat) (s : State),
    (tick^[n] s).dt.toNat = s.dt.toNat - n ∧ (tick^[n] s).st.toNat = s.st.toNat - n ∧
    (0 < n → ((tick^[n] s).beepReq = true ↔ n < s.st.toNat)) ∧
    OnlyChanges s (tick^[n] s) [.dt, .st, .beepReq]

/-- R222, R225: KEY_SET writes one key and RENDER_ACK clears `render_req`; neither changes anything else. -/
def Obligations.KeySetAndRenderAckChangeOneThing : Prop :=
  ∀ (k : Fin 16) (v : Bool) (s : State), s.inited = true →
    (∃ t, transact (.keySet k v) s = .next t ∧ t.keyDown k = v ∧
      (∀ j, j ≠ k → t.keyDown j = s.keyDown j) ∧ OnlyChanges s t [.key]) ∧
    (∃ t, transact .renderAck s = .next t ∧ t.renderReq = false ∧ OnlyChanges s t [.renderReq])

/-- R247, and the model's choice of notes/assumptions/3.md for an empty list: a step performs the oldest transaction the
host has issued, or a cycle with a free random byte where there is none; no transaction touches the ones to come. -/
def Obligations.TransactionsRunInTheHostsOrder : Prop :=
  ∀ s : State,
    (∀ x xs, s.pending = x :: xs → step s = transact x { s with pending := xs }) ∧
    (s.pending = [] → step s = transact (.cycle none) s) ∧
    (∀ x t, transact x s = .next t → t.pending = s.pending)

/-! ### Control flow (spec/40_control_flow.md) -/

/-- R100: SYS is a no-op. -/
def Obligations.SysOnlyAdvances : Prop :=
  ∀ (nnn : Imm12) (s : State),
    (nnn ≠ 0x0E0 → nnn ≠ 0x0EE → decode (BitVec.ofNat 16 nnn.toNat) = .instr (.sys nnn)) ∧
    ∃ t, exec (.sys nnn) s = .next t ∧ t.pc = s.pc + 2 ∧ OnlyChanges s t [.pc]

/-- R101: RET pops, or reports an empty stack and steps over. -/
def Obligations.RetPopsOrReportsUnderflow : Prop :=
  decode 0x00EE = .instr .ret ∧
  ∀ s : State,
    (s.sp = 0 → ∃ t, exec .ret s = .next t ∧ t.pc = s.pc + 2 ∧ Reports .stackUnderflow s t ∧
      OnlyChanges s t [.pc, .errors]) ∧
    (∀ k : Fin 16, s.sp.val = k.val + 1 →
      ∃ t, exec .ret s = .next t ∧ t.sp.val = k.val ∧ t.pc = s.stack[k.val] ∧ OnlyChanges s t [.sp, .pc])

/-- R102: JP sets pc to NNN. -/
def Obligations.JpSetsPc : Prop :=
  ∀ (nnn : Imm12) (s : State),
    decode (BitVec.ofNat 16 (0x1000 + nnn.toNat)) = .instr (.jp nnn) ∧
    ∃ t, exec (.jp nnn) s = .next t ∧ t.pc.toNat = nnn.toNat ∧ OnlyChanges s t [.pc]

/-- R103: CALL pushes pc + 2 and jumps, or reports a full stack and steps over. -/
def Obligations.CallPushesOrReportsOverflow : Prop :=
  ∀ (nnn : Imm12) (s : State),
    decode (BitVec.ofNat 16 (0x2000 + nnn.toNat)) = .instr (.call nnn) ∧
    (s.sp = 16 → ∃ t, exec (.call nnn) s = .next t ∧ t.pc = s.pc + 2 ∧ Reports .stackOverflow s t ∧
      OnlyChanges s t [.pc, .errors]) ∧
    (∀ k : Fin 16, s.sp.val = k.val →
      ∃ t, exec (.call nnn) s = .next t ∧ t.stack[k.val] = s.pc + 2 ∧ t.sp.val = k.val + 1 ∧
        t.pc.toNat = nnn.toNat ∧ OnlyChanges s t [.stack k, .sp, .pc])

/-- R104: BNNN jumps to NNN + V0, or to NNN + VX with X = NNN[11:8] when `JUMP_VX`; the sum is not masked. -/
def Obligations.JpV0AddsARegister : Prop :=
  ∀ (nnn : Imm12) (s : State),
    decode (BitVec.ofNat 16 (0xB000 + nnn.toNat)) = .instr (.jpV0 nnn) ∧
    ∃ t, exec (.jpV0 nnn) s = .next t ∧
      (s.params.jumpVx = false → t.pc.toNat = nnn.toNat + (s.getV 0).toNat) ∧
      (∀ x : Reg, s.params.jumpVx = true → x.val = nnn.toNat / 0x100 →
        t.pc.toNat = nnn.toNat + (s.getV x).toNat) ∧
      OnlyChanges s t [.pc]

/-- R105, R106: 3XNN skips when VX = NN, 4XNN when VX ≠ NN. -/
def Obligations.SkipsOnImmediate : Prop :=
  ∀ (x : Reg) (nn : Byte) (s : State),
    decode (BitVec.ofNat 16 (0x3000 + 0x100 * x.val + nn.toNat)) = .instr (.seByte x nn) ∧
    decode (BitVec.ofNat 16 (0x4000 + 0x100 * x.val + nn.toNat)) = .instr (.sneByte x nn) ∧
    (∃ t, exec (.seByte x nn) s = .next t ∧ t.pc = (if s.getV x = nn then s.pc + 4 else s.pc + 2) ∧
      OnlyChanges s t [.pc]) ∧
    (∃ t, exec (.sneByte x nn) s = .next t ∧ t.pc = (if s.getV x ≠ nn then s.pc + 4 else s.pc + 2) ∧
      OnlyChanges s t [.pc])

/-- R107, R108: 5XY0 skips when VX = VY, 9XY0 when VX ≠ VY. -/
def Obligations.SkipsOnRegister : Prop :=
  ∀ (x y : Reg) (s : State),
    decode (BitVec.ofNat 16 (0x5000 + 0x100 * x.val + 0x10 * y.val)) = .instr (.seReg x y) ∧
    decode (BitVec.ofNat 16 (0x9000 + 0x100 * x.val + 0x10 * y.val)) = .instr (.sneReg x y) ∧
    (∀ (n : Nibble) (w : Word), n ≠ 0 →
      (w = BitVec.ofNat 16 (0x5000 + 0x100 * x.val + 0x10 * y.val + n.toNat) ∨
        w = BitVec.ofNat 16 (0x9000 + 0x100 * x.val + 0x10 * y.val + n.toNat)) → decode w = .unknown w) ∧
    (∃ t, exec (.seReg x y) s = .next t ∧ t.pc = (if s.getV x = s.getV y then s.pc + 4 else s.pc + 2) ∧
      OnlyChanges s t [.pc]) ∧
    (∃ t, exec (.sneReg x y) s = .next t ∧ t.pc = (if s.getV x ≠ s.getV y then s.pc + 4 else s.pc + 2) ∧
      OnlyChanges s t [.pc])

/-- R253: a jump to its own address, below 0xFFF, changes nothing but the cycle's result. -/
def Obligations.JumpToSelfChangesOnlyTheResult : Prop :=
  ∀ (nnn : Imm12) (r : Option Byte) (s : State),
    decode s.opcodeAtPc = .instr (.jp nnn) → s.pc.toNat = nnn.toNat → nnn.toNat < 0xFFF →
    ∃ t, cycle r s = .next t ∧ t.result.pcAt = t.pc ∧ t.result.op = 0x1000 ||| t.result.pcAt ∧ t.result.err = 0 ∧
      t.errLog = s.errLog ∧ OnlyChanges s t [.record, .waiting, .errors, .randomIn]

/-- R110: after a CALL that does not overflow, whatever runs while the stack holds the return address, the matching RET
leaves pc after the CALL and sp as before it. -/
def Obligations.CallThenMatchingReturn : Prop :=
  ∀ (s t u : State) (nnn : Imm12),
    NextExecutes s (.call nnn) → s.sp.val < 16 → step s = .next t →
    Inside t.sp.val t u → u.sp = t.sp → NextExecutes u .ret →
    ∃ w, step u = .next w ∧ w.pc = s.pc + 2 ∧ w.sp = s.sp

/-! ### Registers and ALU (spec/41_alu.md) -/

/-- R131: VX <- NN. -/
def Obligations.LoadImmediateWritesRegister : Prop :=
  ∀ (x : Reg) (nn : Byte) (s : State),
    decode (BitVec.ofNat 16 (0x6000 + 0x100 * x.val + nn.toNat)) = .instr (.ldByte x nn) ∧
    ∃ t, exec (.ldByte x nn) s = .next t ∧ t.getV x = nn ∧ t.pc = s.pc + 2 ∧ OnlyChanges s t [.v x, .pc]

/-- R132: VX <- VX + NN modulo 256, VF not written unless it is VX. -/
def Obligations.AddImmediateWrapsWithoutFlag : Prop :=
  ∀ (x : Reg) (nn : Byte) (s : State),
    decode (BitVec.ofNat 16 (0x7000 + 0x100 * x.val + nn.toNat)) = .instr (.addByte x nn) ∧
    ∃ t, exec (.addByte x nn) s = .next t ∧ (t.getV x).toNat = ((s.getV x).toNat + nn.toNat) % 256 ∧
      t.pc = s.pc + 2 ∧ OnlyChanges s t [.v x, .pc]

/-- R133: VX <- VY. -/
def Obligations.CopyRegister : Prop :=
  ∀ (x y : Reg) (s : State),
    decode (BitVec.ofNat 16 (0x8000 + 0x100 * x.val + 0x10 * y.val)) = .instr (.ldReg x y) ∧
    ∃ t, exec (.ldReg x y) s = .next t ∧ t.getV x = s.getV y ∧ t.pc = s.pc + 2 ∧ OnlyChanges s t [.v x, .pc]

/-- R134, R135, R136: the bitwise results, and VF <- 0 after them exactly when `LOGIC_VF_RESET`. -/
def Obligations.BitwiseResultsAndLogicFlag : Prop :=
  ∀ (x y : Reg) (s : State) (i : Instr) (b : Byte) (n : Nat),
    (i, b, n) ∈ [(Instr.or x y, s.getV x ||| s.getV y, 1), (Instr.and x y, s.getV x &&& s.getV y, 2),
      (Instr.xor x y, s.getV x ^^^ s.getV y, 3)] →
    decode (BitVec.ofNat 16 (0x8000 + 0x100 * x.val + 0x10 * y.val + n)) = .instr i ∧
    ∃ t, exec i s = .next t ∧ t.pc = s.pc + 2 ∧
      (s.params.logicVfReset = false → t.getV x = b ∧ OnlyChanges s t [.v x, .pc]) ∧
      (s.params.logicVfReset = true → (x ≠ 15 → t.getV x = b) ∧ t.getV 15 = 0 ∧ OnlyChanges s t [.v x, .v 15, .pc])

/-- R137, R143: VX <- VX + VY modulo 256, then VF <- carry. -/
def Obligations.AddRegistersWithCarry : Prop :=
  ∀ (x y : Reg) (s : State),
    decode (BitVec.ofNat 16 (0x8004 + 0x100 * x.val + 0x10 * y.val)) = .instr (.addReg x y) ∧
    ∃ t, exec (.addReg x y) s = .next t ∧ t.pc = s.pc + 2 ∧
      (x ≠ 15 → (t.getV x).toNat = ((s.getV x).toNat + (s.getV y).toNat) % 256) ∧
      t.getV 15 = (if (s.getV x).toNat + (s.getV y).toNat > 255 then 1 else 0) ∧
      OnlyChanges s t [.v x, .v 15, .pc]

/-- R138, R140: 8XY5 is VX - VY and 8XY7 is VY - VX, modulo 256, then VF <- 1 when there is no borrow. -/
def Obligations.SubtractRegistersWithBorrow : Prop :=
  ∀ (x y : Reg) (s : State) (i : Instr) (a b : Byte) (n : Nat),
    (i, a, b, n) ∈ [(Instr.sub x y, s.getV x, s.getV y, 5), (Instr.subn x y, s.getV y, s.getV x, 7)] →
    decode (BitVec.ofNat 16 (0x8000 + 0x100 * x.val + 0x10 * y.val + n)) = .instr i ∧
    ∃ t, exec i s = .next t ∧ t.pc = s.pc + 2 ∧
      (x ≠ 15 → ((t.getV x).toNat : Int) = ((a.toNat : Int) - b.toNat) % 256) ∧
      t.getV 15 = (if a.toNat ≥ b.toNat then 1 else 0) ∧
      OnlyChanges s t [.v x, .v 15, .pc]

/-- R139, R141: the shifts by one of VX, or of VY when `SHIFT_SRC_VY`, then VF <- the bit shifted out. -/
def Obligations.ShiftsByOneWithBitOut : Prop :=
  ∀ (x y : Reg) (s : State) (b : Byte), b = (if s.params.shiftSrcVy = true then s.getV y else s.getV x) →
    decode (BitVec.ofNat 16 (0x8006 + 0x100 * x.val + 0x10 * y.val)) = .instr (.shr x y) ∧
    decode (BitVec.ofNat 16 (0x800E + 0x100 * x.val + 0x10 * y.val)) = .instr (.shl x y) ∧
    (∃ t, exec (.shr x y) s = .next t ∧ t.pc = s.pc + 2 ∧ (x ≠ 15 → (t.getV x).toNat = b.toNat / 2) ∧
      (t.getV 15).toNat = b.toNat % 2 ∧ OnlyChanges s t [.v x, .v 15, .pc]) ∧
    (∃ t, exec (.shl x y) s = .next t ∧ t.pc = s.pc + 2 ∧ (x ≠ 15 → (t.getV x).toNat = 2 * b.toNat % 256) ∧
      (t.getV 15).toNat = b.toNat / 128 ∧ OnlyChanges s t [.v x, .v 15, .pc])

/-- R142: VX <- r & NN for the cycle's random byte r. Every r the host may give is admitted; the clause for a cycle without
one, r the free value of `draws` and `draws` counted up, is the model's choice and no rule's (DESIGN CHOICE,
notes/assumptions/4.md); nothing is assumed of that value. -/
def Obligations.RandomByteMasked : Prop :=
  ∀ (x : Reg) (nn : Byte) (s : State),
    decode (BitVec.ofNat 16 (0xC000 + 0x100 * x.val + nn.toNat)) = .instr (.rnd x nn) ∧
    (∃ t r, exec (.rnd x nn) s = .next t ∧ t.getV x = r &&& nn ∧ (∀ q, s.randomIn = some q → r = q) ∧
      (s.randomIn = none → r = Config.randomByte s.draws ∧ t.draws = s.draws + 1) ∧
      t.pc = s.pc + 2 ∧ OnlyChanges s t [.v x, .pc, .draws]) ∧
    (∀ r, decode s.opcodeAtPc = .instr (.rnd x nn) → ∃ t, cycle (some r) s = .next t ∧ t.getV x = r &&& nn)

/-! ### Index and memory (spec/42_index_memory.md) -/

/-- R160: I <- NNN. -/
def Obligations.LoadIndexImmediate : Prop :=
  ∀ (nnn : Imm12) (s : State),
    decode (BitVec.ofNat 16 (0xA000 + nnn.toNat)) = .instr (.ldI nnn) ∧
    ∃ t, exec (.ldI nnn) s = .next t ∧ t.i.toNat = nnn.toNat ∧ t.pc = s.pc + 2 ∧ OnlyChanges s t [.i, .pc]

/-- R161: I <- I + VX modulo 2^16, then VF <- the exact sum exceeds 0xFFF, when `FX1E_VF`. -/
def Obligations.AddToIndexWithFlag : Prop :=
  ∀ (x : Reg) (s : State),
    decode (BitVec.ofNat 16 (0xF01E + 0x100 * x.val)) = .instr (.addI x) ∧
    ∃ t, exec (.addI x) s = .next t ∧ t.i.toNat = (s.i.toNat + (s.getV x).toNat) % 0x10000 ∧ t.pc = s.pc + 2 ∧
      (s.params.fx1eVf = true → t.getV 15 = (if s.i.toNat + (s.getV x).toNat > 0xFFF then 1 else 0) ∧
        OnlyChanges s t [.i, .v 15, .pc]) ∧
      (s.params.fx1eVf = false → OnlyChanges s t [.i, .pc])

/-- R162: I <- FONT_BASE + 5 * (VX & 0xF). -/
def Obligations.IndexOfFontGlyph : Prop :=
  ∀ (x : Reg) (s : State),
    decode (BitVec.ofNat 16 (0xF029 + 0x100 * x.val)) = .instr (.ldF x) ∧
    ∃ t, exec (.ldF x) s = .next t ∧ t.i.toNat = s.params.fontBase.val + 5 * ((s.getV x).toNat % 16) ∧
      t.pc = s.pc + 2 ∧ OnlyChanges s t [.i, .pc]

/-- R163: the three decimal digits of VX at I, I + 1, I + 2, masked, each address above 0xFFF reported. -/
def Obligations.BcdStoresThreeDigits : Prop :=
  ∀ (x : Reg) (s : State),
    decode (BitVec.ofNat 16 (0xF033 + 0x100 * x.val)) = .instr (.ldB x) ∧
    ∃ t, exec (.ldB x) s = .next t ∧
      (t.byteAt (s.indexPlus 0)).toNat = (s.getV x).toNat / 100 ∧
      (t.byteAt (s.indexPlus 1)).toNat = (s.getV x).toNat / 10 % 10 ∧
      (t.byteAt (s.indexPlus 2)).toNat = (s.getV x).toNat % 10 ∧
      t.pc = s.pc + 2 ∧ ReportsRange (s.indexPlus 0) 3 s t ∧
      OnlyChanges s t (storedCells (s.indexPlus 0) 3 ++ [.pc, .errors])

/-- R164: V0..VX at I, I + 1, ..., masked, each address above 0xFFF reported; I moves on only when `LDST_INC_I`. -/
def Obligations.StoreRegistersFromIndex : Prop :=
  ∀ (x : Reg) (s : State),
    decode (BitVec.ofNat 16 (0xF055 + 0x100 * x.val)) = .instr (.storeRegs x) ∧
    ∃ t, exec (.storeRegs x) s = .next t ∧
      (∀ k : Reg, k ≤ x → t.byteAt (s.indexPlus k.val) = s.getV k) ∧
      t.pc = s.pc + 2 ∧ ReportsRange (s.indexPlus 0) (x.val + 1) s t ∧
      (s.params.ldstIncI = true → t.i.toNat = (s.i.toNat + x.val + 1) % 0x10000) ∧
      (s.params.ldstIncI = false → t.i = s.i) ∧
      OnlyChanges s t (storedCells (s.indexPlus 0) (x.val + 1) ++ [.i, .pc, .errors])

/-- R165: V0..VX from I, I + 1, ..., masked, each address above 0xFFF reported; I moves on only when `LDST_INC_I`. -/
def Obligations.LoadRegistersFromIndex : Prop :=
  ∀ (x : Reg) (s : State),
    decode (BitVec.ofNat 16 (0xF065 + 0x100 * x.val)) = .instr (.loadRegs x) ∧
    ∃ t, exec (.loadRegs x) s = .next t ∧
      (∀ k : Reg, k ≤ x → t.getV k = s.byteAt (s.indexPlus k.val)) ∧
      (∀ k : Reg, x < k → t.getV k = s.getV k) ∧
      t.pc = s.pc + 2 ∧ ReportsRange (s.indexPlus 0) (x.val + 1) s t ∧
      (s.params.ldstIncI = true → t.i.toNat = (s.i.toNat + x.val + 1) % 0x10000) ∧
      (s.params.ldstIncI = false → t.i = s.i) ∧
      OnlyChanges s t ((List.finRange 16).map .v ++ [.i, .pc, .errors])

/-! ### Display (spec/43_display.md) -/

/-- R181: CLS clears every cell and requests a render. -/
def Obligations.ClsClearsTheFramebuffer : Prop :=
  decode 0x00E0 = .instr .cls ∧
  ∀ s : State, ∃ t, exec .cls s = .next t ∧ (∀ (y : Fin 32) (x : Fin 64), t.fb[y.val][x.val] = false) ∧
    t.renderReq = true ∧ t.pc = s.pc + 2 ∧ OnlyChanges s t [.fb, .renderReq, .pc]

/-- R182, R183: DXYN toggles exactly the cells its sprite covers, with wraparound, sets VF to 1 exactly when a cell that was
on is off after it, requests a render, and reads memory only. -/
def Obligations.DrawTogglesTheSpriteAndFlagsCollision : Prop :=
  ∀ (x y : Reg) (n : Nibble) (s : State),
    decode (BitVec.ofNat 16 (0xD000 + 0x100 * x.val + 0x10 * y.val + n.toNat)) = .instr (.drw x y n) ∧
    ∃ t, exec (.drw x y n) s = .next t ∧
      (∀ (px : Fin 64) (py : Fin 32),
        t.fb[py.val][px.val] = (s.fb[py.val][px.val] ^^ s.spriteCovers x y n px py)) ∧
      ((∃ (px : Fin 64) (py : Fin 32), s.fb[py.val][px.val] = true ∧ t.fb[py.val][px.val] = false) → t.getV 15 = 1) ∧
      ((∀ (px : Fin 64) (py : Fin 32), s.fb[py.val][px.val] = true → t.fb[py.val][px.val] = true) → t.getV 15 = 0) ∧
      t.renderReq = true ∧ t.pc = s.pc + 2 ∧ ReportsRange (s.indexPlus 0) n.toNat s t ∧
      OnlyChanges s t [.fb, .v 15, .renderReq, .pc, .errors]

/-- R183 (XOR self-cancellation): the same sprite drawn twice at the same coordinates leaves the framebuffer as it was;
from a clear framebuffer, with a nonzero sprite byte, VF is 0 after the first draw and 1 after the second. -/
def Obligations.DrawingTwiceCancels : Prop :=
  ∀ (x y : Reg) (n : Nibble) (s t u : State), x ≠ 15 → y ≠ 15 →
    exec (.drw x y n) s = .next t → exec (.drw x y n) t = .next u →
    u.fb = s.fb ∧
    ((∀ (px : Fin 64) (py : Fin 32), s.fb[py.val][px.val] = false) →
      t.getV 15 = 0 ∧ ((∃ k, k < n.toNat ∧ s.byteAt (s.indexPlus k) ≠ 0) → u.getV 15 = 1))

/-! ### Timers and keys (spec/44_timers_keys.md) -/

/-- R190, R191: EX9E skips when the key of VX's low nibble is pressed, EXA1 when it is not. -/
def Obligations.SkipsOnKey : Prop :=
  ∀ (x k : Reg) (s : State), k.val = (s.getV x).toNat % 16 →
    decode (BitVec.ofNat 16 (0xE09E + 0x100 * x.val)) = .instr (.skp x) ∧
    decode (BitVec.ofNat 16 (0xE0A1 + 0x100 * x.val)) = .instr (.sknp x) ∧
    (∃ t, exec (.skp x) s = .next t ∧ t.pc = (if s.keyDown k = true then s.pc + 4 else s.pc + 2) ∧
      OnlyChanges s t [.pc]) ∧
    (∃ t, exec (.sknp x) s = .next t ∧ t.pc = (if s.keyDown k = false then s.pc + 4 else s.pc + 2) ∧
      OnlyChanges s t [.pc])

/-- R192, R194, R195: FX07 reads DT, FX15 writes DT and FX18 writes ST; `beep_req` is not written. -/
def Obligations.TimerRegistersMove : Prop :=
  ∀ (x : Reg) (s : State),
    decode (BitVec.ofNat 16 (0xF007 + 0x100 * x.val)) = .instr (.ldVxDt x) ∧
    decode (BitVec.ofNat 16 (0xF015 + 0x100 * x.val)) = .instr (.ldDtVx x) ∧
    decode (BitVec.ofNat 16 (0xF018 + 0x100 * x.val)) = .instr (.ldStVx x) ∧
    (∃ t, exec (.ldVxDt x) s = .next t ∧ t.getV x = s.dt ∧ t.pc = s.pc + 2 ∧ OnlyChanges s t [.v x, .pc]) ∧
    (∃ t, exec (.ldDtVx x) s = .next t ∧ t.dt = s.getV x ∧ t.pc = s.pc + 2 ∧ OnlyChanges s t [.dt, .pc]) ∧
    (∃ t, exec (.ldStVx x) s = .next t ∧ t.st = s.getV x ∧ t.pc = s.pc + 2 ∧ OnlyChanges s t [.st, .pc])

/-- R193: FX0A takes the least pressed key, or, with none pressed, reports `waiting` and holds pc. -/
def Obligations.WaitForKeyTakesTheLeastOrHolds : Prop :=
  ∀ (x : Reg) (s : State),
    decode (BitVec.ofNat 16 (0xF00A + 0x100 * x.val)) = .instr (.ldVxK x) ∧
    (∀ k : Fin 16, s.keyDown k = true → (∀ j, j < k → s.keyDown j = false) →
      ∃ t, exec (.ldVxK x) s = .next t ∧ (t.getV x).toNat = k.val ∧ t.pc = s.pc + 2 ∧ OnlyChanges s t [.v x, .pc]) ∧
    ((∀ k, s.keyDown k = false) →
      ∃ t, exec (.ldVxK x) s = .next t ∧ t.result.waiting = true ∧ t.pc = s.pc ∧ OnlyChanges s t [.waiting])

/-! ### The call stack over one step -/

/-- R25, R26, R101, R103: an occupied slot that stays occupied over a step, whatever the transaction, keeps its content: only
CALL writes a slot, and the one it writes is not yet occupied. `CallThenMatchingReturn` says what this means for a run. -/
def Obligations.OccupiedStackSlotsAreKept : Prop :=
  ∀ (s t : State) (k : Fin 16) (a : Word), k.val < s.sp.val → s.stack[k.val] = a → step s = .next t → k.val < t.sp.val →
    t.stack[k.val] = a
end

