-- ==== Sys2Proof/Laws/Decode.lean ====
section
/-! SUPPORT. The decoder's fields as numbers, and the fields of each layout the encoder writes. -/

namespace Sys2Proof

/-! ### Fields as numbers (R9, R73) -/

@[simp] theorem Field.f_toNat (op : Word) : (Field.f op).toNat = op.toNat / 0x1000 := by
  have := op.isLt
  simp [Field.f, BitVec.extractLsb'_toNat, Nat.shiftRight_eq_div_pow]; omega

@[simp] theorem Field.x_val (op : Word) : (Field.x op).val = op.toNat / 0x100 % 0x10 := by
  simp [Field.x, BitVec.extractLsb'_toNat, Nat.shiftRight_eq_div_pow]

@[simp] theorem Field.y_val (op : Word) : (Field.y op).val = op.toNat / 0x10 % 0x10 := by
  simp [Field.y, BitVec.extractLsb'_toNat, Nat.shiftRight_eq_div_pow]

@[simp] theorem Field.n_toNat (op : Word) : (Field.n op).toNat = op.toNat % 0x10 := by
  simp [Field.n, BitVec.extractLsb'_toNat]

@[simp] theorem Field.nn_toNat (op : Word) : (Field.nn op).toNat = op.toNat % 0x100 := by
  simp [Field.nn, BitVec.extractLsb'_toNat]

@[simp] theorem Field.nnn_toNat (op : Word) : (Field.nnn op).toNat = op.toNat % 0x1000 := by
  simp [Field.nnn, BitVec.extractLsb'_toNat]

/-! ### Layouts as numbers (R71) -/

theorem append_toNat {w v : Nat} (a : BitVec w) (b : BitVec v) : (a ++ b).toNat = 2 ^ v * a.toNat + b.toNat := by
  rw [BitVec.toNat_append, ← Nat.shiftLeft_add_eq_or_of_lt b.isLt, Nat.shiftLeft_eq, Nat.mul_comm]

@[simp] theorem layoutNnn_toNat (f : Nibble) (nnn : Imm12) :
    (layoutNnn f nnn).toNat = 0x1000 * f.toNat + nnn.toNat := append_toNat f nnn

@[simp] theorem layoutXnn_toNat (f : Nibble) (x : Reg) (nn : Byte) :
    (layoutXnn f x nn).toNat = 0x1000 * f.toNat + 0x100 * x.val + nn.toNat := by
  have hx := x.isLt
  have h1 := append_toNat f (BitVec.ofNat 4 x.val)
  have h2 : (layoutXnn f x nn).toNat = _ := append_toNat (f ++ BitVec.ofNat 4 x.val) nn
  rw [h1, BitVec.toNat_ofNat] at h2
  omega

@[simp] theorem layoutXyn_toNat (f : Nibble) (x y : Reg) (n : Nibble) :
    (layoutXyn f x y n).toNat = 0x1000 * f.toNat + 0x100 * x.val + 0x10 * y.val + n.toNat := by
  have hx := x.isLt
  have hy := y.isLt
  have h1 := append_toNat f (BitVec.ofNat 4 x.val)
  have h2 := append_toNat (f ++ BitVec.ofNat 4 x.val) (BitVec.ofNat 4 y.val)
  have h3 : (layoutXyn f x y n).toNat = _ := append_toNat (f ++ BitVec.ofNat 4 x.val ++ BitVec.ofNat 4 y.val) n
  rw [h2, h1, BitVec.toNat_ofNat, BitVec.toNat_ofNat] at h3
  omega

/-! ### Fields of a layout -/

@[simp] theorem f_layoutNnn (f : Nibble) (nnn : Imm12) : Field.f (layoutNnn f nnn) = f := by
  apply BitVec.eq_of_toNat_eq; have := nnn.isLt; simp; omega
@[simp] theorem nnn_layoutNnn (f : Nibble) (nnn : Imm12) : Field.nnn (layoutNnn f nnn) = nnn := by
  apply BitVec.eq_of_toNat_eq; have := nnn.isLt; simp; omega
@[simp] theorem f_layoutXnn (f : Nibble) (x : Reg) (nn : Byte) : Field.f (layoutXnn f x nn) = f := by
  apply BitVec.eq_of_toNat_eq; have := nn.isLt; have := x.isLt; simp; omega
@[simp] theorem x_layoutXnn (f : Nibble) (x : Reg) (nn : Byte) : Field.x (layoutXnn f x nn) = x := by
  apply Fin.ext; have := nn.isLt; have := x.isLt; simp; omega
@[simp] theorem nn_layoutXnn (f : Nibble) (x : Reg) (nn : Byte) : Field.nn (layoutXnn f x nn) = nn := by
  apply BitVec.eq_of_toNat_eq; have := nn.isLt; simp; omega
@[simp] theorem f_layoutXyn (f : Nibble) (x y : Reg) (n : Nibble) : Field.f (layoutXyn f x y n) = f := by
  apply BitVec.eq_of_toNat_eq; have := n.isLt; have := x.isLt; have := y.isLt; simp; omega
@[simp] theorem x_layoutXyn (f : Nibble) (x y : Reg) (n : Nibble) : Field.x (layoutXyn f x y n) = x := by
  apply Fin.ext; have := n.isLt; have := x.isLt; have := y.isLt; simp; omega
@[simp] theorem y_layoutXyn (f : Nibble) (x y : Reg) (n : Nibble) : Field.y (layoutXyn f x y n) = y := by
  apply Fin.ext; have := n.isLt; have := x.isLt; have := y.isLt; simp; omega
@[simp] theorem n_layoutXyn (f : Nibble) (x y : Reg) (n : Nibble) : Field.n (layoutXyn f x y n) = n := by
  apply BitVec.eq_of_toNat_eq; have := n.isLt; simp; omega

/-! ### The decoder, by family (R74) -/

theorem decode_family0 {op : Word} (h : Field.f op = 0x0) : decode op = decodeFamily0 op := by simp [decode, h]
theorem decode_family1 {op : Word} (h : Field.f op = 0x1) : decode op = .instr (.jp (Field.nnn op)) := by simp [decode, h]
theorem decode_family2 {op : Word} (h : Field.f op = 0x2) : decode op = .instr (.call (Field.nnn op)) := by simp [decode, h]
theorem decode_family3 {op : Word} (h : Field.f op = 0x3) : decode op = .instr (.seByte (Field.x op) (Field.nn op)) := by simp [decode, h]
theorem decode_family4 {op : Word} (h : Field.f op = 0x4) : decode op = .instr (.sneByte (Field.x op) (Field.nn op)) := by simp [decode, h]
theorem decode_family5 {op : Word} (h : Field.f op = 0x5) : decode op = decodeFamily5 op := by simp [decode, h]
theorem decode_family6 {op : Word} (h : Field.f op = 0x6) : decode op = .instr (.ldByte (Field.x op) (Field.nn op)) := by simp [decode, h]
theorem decode_family7 {op : Word} (h : Field.f op = 0x7) : decode op = .instr (.addByte (Field.x op) (Field.nn op)) := by simp [decode, h]
theorem decode_family8 {op : Word} (h : Field.f op = 0x8) : decode op = decodeFamily8 op := by simp [decode, h]
theorem decode_family9 {op : Word} (h : Field.f op = 0x9) : decode op = decodeFamily9 op := by simp [decode, h]
theorem decode_familyA {op : Word} (h : Field.f op = 0xA) : decode op = .instr (.ldI (Field.nnn op)) := by simp [decode, h]
theorem decode_familyB {op : Word} (h : Field.f op = 0xB) : decode op = .instr (.jpV0 (Field.nnn op)) := by simp [decode, h]
theorem decode_familyC {op : Word} (h : Field.f op = 0xC) : decode op = .instr (.rnd (Field.x op) (Field.nn op)) := by simp [decode, h]
theorem decode_familyD {op : Word} (h : Field.f op = 0xD) : decode op = .instr (.drw (Field.x op) (Field.y op) (Field.n op)) := by simp [decode, h]
theorem decode_familyE {op : Word} (h : Field.f op = 0xE) : decode op = decodeFamilyE op := by simp [decode, h]
theorem decode_familyF {op : Word} (h : Field.f op = 0xF) : decode op = decodeFamilyF op := by simp [decode, h]

/-- The top nibble is one of the sixteen families. -/
theorem Field.f_cases (op : Word) :
    Field.f op = 0x0 ∨ Field.f op = 0x1 ∨ Field.f op = 0x2 ∨ Field.f op = 0x3 ∨ Field.f op = 0x4 ∨ Field.f op = 0x5 ∨
    Field.f op = 0x6 ∨ Field.f op = 0x7 ∨ Field.f op = 0x8 ∨ Field.f op = 0x9 ∨ Field.f op = 0xA ∨ Field.f op = 0xB ∨
    Field.f op = 0xC ∨ Field.f op = 0xD ∨ Field.f op = 0xE ∨ Field.f op = 0xF := by
  generalize Field.f op = f
  revert f
  decide

/-- A word is the layout of its own fields, in each of the three layouts. -/
theorem layoutNnn_fields (op : Word) : layoutNnn (Field.f op) (Field.nnn op) = op := by
  apply BitVec.eq_of_toNat_eq; simp; omega
theorem layoutXnn_fields (op : Word) : layoutXnn (Field.f op) (Field.x op) (Field.nn op) = op := by
  apply BitVec.eq_of_toNat_eq; simp; omega
theorem layoutXyn_fields (op : Word) : layoutXyn (Field.f op) (Field.x op) (Field.y op) (Field.n op) = op := by
  apply BitVec.eq_of_toNat_eq; simp; omega

/-- A fetched opcode as a number: the first byte is the high one (R54). -/
@[simp] theorem opcodeOfBytes_toNat (hi lo : Byte) : (opcodeOfBytes hi lo).toNat = 0x100 * hi.toNat + lo.toNat := by
  have hh := hi.isLt
  have hl := lo.isLt
  have : opcodeOfBytes hi lo = (hi ++ lo : BitVec 16) := by
    apply BitVec.eq_of_toNat_eq
    rw [append_toNat]
    simp only [opcodeOfBytes, BitVec.toNat_or, BitVec.toNat_shiftLeft, BitVec.toNat_setWidth, BitVec.truncate_eq_setWidth]
    rw [Nat.mod_eq_of_lt (a := lo.toNat) (by omega), Nat.mod_eq_of_lt (a := hi.toNat) (by omega),
      Nat.shiftLeft_eq, Nat.mod_eq_of_lt (by omega), ← Nat.shiftLeft_eq, ← Nat.shiftLeft_add_eq_or_of_lt hl,
      Nat.shiftLeft_eq, Nat.mul_comm]
  rw [this]
  exact append_toNat hi lo

/-- The decoder does not look at how a word is spelt, only at its fields: two words equal as numbers decode alike. -/
theorem decode_congr {op op' : Word} (h : op.toNat = op'.toNat) : decode op = decode op' := by
  rw [BitVec.eq_of_toNat_eq h]

/-- What the decoder reads from two bytes. -/
theorem decodeBytes_eq (hi lo : Byte) : decodeBytes hi lo = decode (opcodeOfBytes hi lo) := rfl

end Sys2Proof
end

