-- ==== Sys2Proof/Laws/Memory.lean ====
section
/-! SUPPORT. The laws of the byte array: read after write at every address, for every list of cells, and that every
operation keeps the canonical form. -/

namespace Sys2Proof.Machine.Memory

variable {p : Params}

theorem read_erase (m : Memory) (a b : Nat) :
    read p (erase m a) b = if b = a then resetByte p a else read p m b := by
  induction m with
  | nil => by_cases h : b = a <;> simp [erase, read, h]
  | cons c m ih =>
    obtain ⟨k, v⟩ := c
    by_cases hk : k = a
    · subst hk
      by_cases hb : b = k
      · subst hb; simpa [erase] using ih
      · simp [erase, ih, hb, read, Ne.symm hb]
    · by_cases hb : b = a
      · subst hb; simp [erase, hk, read, ih]
      · simp [erase, hk, read, ih, hb]

theorem read_insert_self (m : Memory) (a : Nat) (v : Byte) (h : ∀ c ∈ m, c.1 ≠ a) : read p (insert m a v) a = v := by
  induction m with
  | nil => simp [insert, read]
  | cons c m ih =>
    obtain ⟨k, w⟩ := c
    have hk : k ≠ a := h (k, w) (by simp)
    by_cases hlt : a < k
    · simp [insert, hlt, read]
    · simpa [insert, hlt, read, hk] using ih fun c hc => h c (by simp [hc])

theorem read_insert_other (m : Memory) (a b : Nat) (v : Byte) (h : b ≠ a) : read p (insert m a v) b = read p m b := by
  induction m with
  | nil => simp [insert, read, Ne.symm h]
  | cons c m ih =>
    obtain ⟨k, w⟩ := c
    by_cases hlt : a < k
    · simp [insert, hlt, read, Ne.symm h]
    · simp [insert, hlt, read, ih]

theorem ne_of_mem_erase {m : Memory} {a : Nat} {c : Host.Cell} (h : c ∈ erase m a) : c.1 ≠ a := by
  induction m with
  | nil => simp [erase] at h
  | cons d m ih =>
    obtain ⟨k, v⟩ := d
    by_cases hk : k = a
    · simp only [erase, hk, if_true] at h; exact ih h
    · simp only [erase, hk, if_false, List.mem_cons] at h
      rcases h with rfl | h
      · exact hk
      · exact ih h

/-- Read after write, at every address (R61). -/
theorem read_write (m : Memory) (a b : Nat) (v : Byte) :
    read p (write p m a v) b = if b = a then v else read p m b := by
  unfold write
  split
  · rename_i hv; rw [read_erase]; simp [hv]
  · by_cases hb : b = a
    · subst hb; simp [read_insert_self _ _ _ fun c hc => ne_of_mem_erase hc]
    · simp [read_insert_other _ _ _ _ hb, read_erase, hb]

@[simp] theorem read_write_self (m : Memory) (a : Nat) (v : Byte) : read p (write p m a v) a = v := by
  simp [read_write]

@[simp] theorem read_write_other (m : Memory) {a b : Nat} (v : Byte) (h : b ≠ a) :
    read p (write p m a v) b = read p m b := by simp [read_write, h]

@[simp] theorem wfFrom_nil (lo : Nat) : wfFrom p lo [] = true := rfl

theorem wfFrom_cons (lo k : Nat) (b : Byte) (m : Memory) :
    wfFrom p lo ((k, b) :: m) = true ↔ lo ≤ k ∧ k < memSize ∧ b ≠ resetByte p k ∧ wfFrom p (k + 1) m = true := by
  simp [wfFrom, and_assoc]

theorem wfFrom_mono {lo lo' : Nat} (m : Memory) (h : lo ≤ lo') (hm : wfFrom p lo' m = true) : wfFrom p lo m = true := by
  cases m with
  | nil => rfl
  | cons c m =>
    obtain ⟨k, b⟩ := c
    rw [wfFrom_cons] at hm ⊢
    exact ⟨by omega, hm.2⟩

theorem wfFrom_erase {lo : Nat} (m : Memory) (a : Nat) (hm : wfFrom p lo m = true) : wfFrom p lo (erase m a) = true := by
  induction m generalizing lo with
  | nil => rfl
  | cons c m ih =>
    obtain ⟨k, b⟩ := c
    rw [wfFrom_cons] at hm
    by_cases hk : k = a
    · simpa [erase, hk] using wfFrom_mono _ (by omega) (ih hm.2.2.2)
    · simp only [erase, hk, if_false, wfFrom_cons]
      exact ⟨hm.1, hm.2.1, hm.2.2.1, ih hm.2.2.2⟩

theorem wfFrom_insert {lo : Nat} (m : Memory) (a : Nat) (v : Byte) (hlo : lo ≤ a) (ha : a < memSize)
    (hv : v ≠ resetByte p a) (hn : ∀ c ∈ m, c.1 ≠ a) (hm : wfFrom p lo m = true) :
    wfFrom p lo (insert m a v) = true := by
  induction m generalizing lo with
  | nil => simp [insert, wfFrom_cons, hlo, ha, hv]
  | cons c m ih =>
    obtain ⟨k, b⟩ := c
    rw [wfFrom_cons] at hm
    have hk : k ≠ a := hn (k, b) (by simp)
    by_cases hlt : a < k
    · simp only [insert, hlt, if_true, wfFrom_cons]
      exact ⟨hlo, ha, hv, by omega, hm.2⟩
    · simp only [insert, hlt, if_false, wfFrom_cons]
      exact ⟨hm.1, hm.2.1, hm.2.2.1, ih (by omega) (fun c hc => hn c (by simp [hc])) hm.2.2.2⟩

/-- A write below 0x1000 keeps the canonical form. -/
theorem wf_write (m : Memory) (a : Nat) (v : Byte) (ha : a < memSize) (hm : wf p m = true) :
    wf p (write p m a v) = true := by
  unfold write
  split
  · exact wfFrom_erase m a hm
  · rename_i hv
    exact wfFrom_insert _ a v (Nat.zero_le a) ha hv (fun c hc => ne_of_mem_erase hc) (wfFrom_erase m a hm)

@[simp] theorem wf_nil : wf p [] = true := rfl

end Sys2Proof.Machine.Memory
end

