-- ==== Sys2Proof/Laws/State.lean ====
section
/-! SUPPORT. One lemma per field per update of the Machine State: a proof about an update cites these and unfolds no record. -/

namespace Sys2Proof.Machine

/-! ### `State.setV` -/

@[simp] theorem State.setV_v (s : State) (r : Reg) (b : Byte) : (s.setV r b).v = s.v.set r.val b := rfl
@[simp] theorem State.setV_i (s : State) (r : Reg) (b : Byte) : (s.setV r b).i = s.i := rfl
@[simp] theorem State.setV_pc (s : State) (r : Reg) (b : Byte) : (s.setV r b).pc = s.pc := rfl
@[simp] theorem State.setV_stack (s : State) (r : Reg) (b : Byte) : (s.setV r b).stack = s.stack := rfl
@[simp] theorem State.setV_sp (s : State) (r : Reg) (b : Byte) : (s.setV r b).sp = s.sp := rfl
@[simp] theorem State.setV_dt (s : State) (r : Reg) (b : Byte) : (s.setV r b).dt = s.dt := rfl
@[simp] theorem State.setV_st (s : State) (r : Reg) (b : Byte) : (s.setV r b).st = s.st := rfl
@[simp] theorem State.setV_key (s : State) (r : Reg) (b : Byte) : (s.setV r b).key = s.key := rfl
@[simp] theorem State.setV_fb (s : State) (r : Reg) (b : Byte) : (s.setV r b).fb = s.fb := rfl
@[simp] theorem State.setV_mem (s : State) (r : Reg) (b : Byte) : (s.setV r b).mem = s.mem := rfl
@[simp] theorem State.setV_renderReq (s : State) (r : Reg) (b : Byte) : (s.setV r b).renderReq = s.renderReq := rfl
@[simp] theorem State.setV_beepReq (s : State) (r : Reg) (b : Byte) : (s.setV r b).beepReq = s.beepReq := rfl
@[simp] theorem State.setV_errLog (s : State) (r : Reg) (b : Byte) : (s.setV r b).errLog = s.errLog := rfl
@[simp] theorem State.setV_result (s : State) (r : Reg) (b : Byte) : (s.setV r b).result = s.result := rfl
@[simp] theorem State.setV_loadResult (s : State) (r : Reg) (b : Byte) : (s.setV r b).loadResult = s.loadResult := rfl
@[simp] theorem State.setV_inited (s : State) (r : Reg) (b : Byte) : (s.setV r b).inited = s.inited := rfl
@[simp] theorem State.setV_params (s : State) (r : Reg) (b : Byte) : (s.setV r b).params = s.params := rfl
@[simp] theorem State.setV_pending (s : State) (r : Reg) (b : Byte) : (s.setV r b).pending = s.pending := rfl
@[simp] theorem State.setV_randomIn (s : State) (r : Reg) (b : Byte) : (s.setV r b).randomIn = s.randomIn := rfl
@[simp] theorem State.setV_draws (s : State) (r : Reg) (b : Byte) : (s.setV r b).draws = s.draws := rfl

/-! ### `State.setI` -/

@[simp] theorem State.setI_v (s : State) (w : Word) : (s.setI w).v = s.v := rfl
@[simp] theorem State.setI_i (s : State) (w : Word) : (s.setI w).i = w := rfl
@[simp] theorem State.setI_pc (s : State) (w : Word) : (s.setI w).pc = s.pc := rfl
@[simp] theorem State.setI_stack (s : State) (w : Word) : (s.setI w).stack = s.stack := rfl
@[simp] theorem State.setI_sp (s : State) (w : Word) : (s.setI w).sp = s.sp := rfl
@[simp] theorem State.setI_dt (s : State) (w : Word) : (s.setI w).dt = s.dt := rfl
@[simp] theorem State.setI_st (s : State) (w : Word) : (s.setI w).st = s.st := rfl
@[simp] theorem State.setI_key (s : State) (w : Word) : (s.setI w).key = s.key := rfl
@[simp] theorem State.setI_fb (s : State) (w : Word) : (s.setI w).fb = s.fb := rfl
@[simp] theorem State.setI_mem (s : State) (w : Word) : (s.setI w).mem = s.mem := rfl
@[simp] theorem State.setI_renderReq (s : State) (w : Word) : (s.setI w).renderReq = s.renderReq := rfl
@[simp] theorem State.setI_beepReq (s : State) (w : Word) : (s.setI w).beepReq = s.beepReq := rfl
@[simp] theorem State.setI_errLog (s : State) (w : Word) : (s.setI w).errLog = s.errLog := rfl
@[simp] theorem State.setI_result (s : State) (w : Word) : (s.setI w).result = s.result := rfl
@[simp] theorem State.setI_loadResult (s : State) (w : Word) : (s.setI w).loadResult = s.loadResult := rfl
@[simp] theorem State.setI_inited (s : State) (w : Word) : (s.setI w).inited = s.inited := rfl
@[simp] theorem State.setI_params (s : State) (w : Word) : (s.setI w).params = s.params := rfl
@[simp] theorem State.setI_pending (s : State) (w : Word) : (s.setI w).pending = s.pending := rfl
@[simp] theorem State.setI_randomIn (s : State) (w : Word) : (s.setI w).randomIn = s.randomIn := rfl
@[simp] theorem State.setI_draws (s : State) (w : Word) : (s.setI w).draws = s.draws := rfl

/-! ### `State.setDt` -/

@[simp] theorem State.setDt_v (s : State) (b : Byte) : (s.setDt b).v = s.v := rfl
@[simp] theorem State.setDt_i (s : State) (b : Byte) : (s.setDt b).i = s.i := rfl
@[simp] theorem State.setDt_pc (s : State) (b : Byte) : (s.setDt b).pc = s.pc := rfl
@[simp] theorem State.setDt_stack (s : State) (b : Byte) : (s.setDt b).stack = s.stack := rfl
@[simp] theorem State.setDt_sp (s : State) (b : Byte) : (s.setDt b).sp = s.sp := rfl
@[simp] theorem State.setDt_dt (s : State) (b : Byte) : (s.setDt b).dt = b := rfl
@[simp] theorem State.setDt_st (s : State) (b : Byte) : (s.setDt b).st = s.st := rfl
@[simp] theorem State.setDt_key (s : State) (b : Byte) : (s.setDt b).key = s.key := rfl
@[simp] theorem State.setDt_fb (s : State) (b : Byte) : (s.setDt b).fb = s.fb := rfl
@[simp] theorem State.setDt_mem (s : State) (b : Byte) : (s.setDt b).mem = s.mem := rfl
@[simp] theorem State.setDt_renderReq (s : State) (b : Byte) : (s.setDt b).renderReq = s.renderReq := rfl
@[simp] theorem State.setDt_beepReq (s : State) (b : Byte) : (s.setDt b).beepReq = s.beepReq := rfl
@[simp] theorem State.setDt_errLog (s : State) (b : Byte) : (s.setDt b).errLog = s.errLog := rfl
@[simp] theorem State.setDt_result (s : State) (b : Byte) : (s.setDt b).result = s.result := rfl
@[simp] theorem State.setDt_loadResult (s : State) (b : Byte) : (s.setDt b).loadResult = s.loadResult := rfl
@[simp] theorem State.setDt_inited (s : State) (b : Byte) : (s.setDt b).inited = s.inited := rfl
@[simp] theorem State.setDt_params (s : State) (b : Byte) : (s.setDt b).params = s.params := rfl
@[simp] theorem State.setDt_pending (s : State) (b : Byte) : (s.setDt b).pending = s.pending := rfl
@[simp] theorem State.setDt_randomIn (s : State) (b : Byte) : (s.setDt b).randomIn = s.randomIn := rfl
@[simp] theorem State.setDt_draws (s : State) (b : Byte) : (s.setDt b).draws = s.draws := rfl

/-! ### `State.setSt` -/

@[simp] theorem State.setSt_v (s : State) (b : Byte) : (s.setSt b).v = s.v := rfl
@[simp] theorem State.setSt_i (s : State) (b : Byte) : (s.setSt b).i = s.i := rfl
@[simp] theorem State.setSt_pc (s : State) (b : Byte) : (s.setSt b).pc = s.pc := rfl
@[simp] theorem State.setSt_stack (s : State) (b : Byte) : (s.setSt b).stack = s.stack := rfl
@[simp] theorem State.setSt_sp (s : State) (b : Byte) : (s.setSt b).sp = s.sp := rfl
@[simp] theorem State.setSt_dt (s : State) (b : Byte) : (s.setSt b).dt = s.dt := rfl
@[simp] theorem State.setSt_st (s : State) (b : Byte) : (s.setSt b).st = b := rfl
@[simp] theorem State.setSt_key (s : State) (b : Byte) : (s.setSt b).key = s.key := rfl
@[simp] theorem State.setSt_fb (s : State) (b : Byte) : (s.setSt b).fb = s.fb := rfl
@[simp] theorem State.setSt_mem (s : State) (b : Byte) : (s.setSt b).mem = s.mem := rfl
@[simp] theorem State.setSt_renderReq (s : State) (b : Byte) : (s.setSt b).renderReq = s.renderReq := rfl
@[simp] theorem State.setSt_beepReq (s : State) (b : Byte) : (s.setSt b).beepReq = s.beepReq := rfl
@[simp] theorem State.setSt_errLog (s : State) (b : Byte) : (s.setSt b).errLog = s.errLog := rfl
@[simp] theorem State.setSt_result (s : State) (b : Byte) : (s.setSt b).result = s.result := rfl
@[simp] theorem State.setSt_loadResult (s : State) (b : Byte) : (s.setSt b).loadResult = s.loadResult := rfl
@[simp] theorem State.setSt_inited (s : State) (b : Byte) : (s.setSt b).inited = s.inited := rfl
@[simp] theorem State.setSt_params (s : State) (b : Byte) : (s.setSt b).params = s.params := rfl
@[simp] theorem State.setSt_pending (s : State) (b : Byte) : (s.setSt b).pending = s.pending := rfl
@[simp] theorem State.setSt_randomIn (s : State) (b : Byte) : (s.setSt b).randomIn = s.randomIn := rfl
@[simp] theorem State.setSt_draws (s : State) (b : Byte) : (s.setSt b).draws = s.draws := rfl

/-! ### `State.setFb` -/

@[simp] theorem State.setFb_v (s : State) (g : Framebuffer) : (s.setFb g).v = s.v := rfl
@[simp] theorem State.setFb_i (s : State) (g : Framebuffer) : (s.setFb g).i = s.i := rfl
@[simp] theorem State.setFb_pc (s : State) (g : Framebuffer) : (s.setFb g).pc = s.pc := rfl
@[simp] theorem State.setFb_stack (s : State) (g : Framebuffer) : (s.setFb g).stack = s.stack := rfl
@[simp] theorem State.setFb_sp (s : State) (g : Framebuffer) : (s.setFb g).sp = s.sp := rfl
@[simp] theorem State.setFb_dt (s : State) (g : Framebuffer) : (s.setFb g).dt = s.dt := rfl
@[simp] theorem State.setFb_st (s : State) (g : Framebuffer) : (s.setFb g).st = s.st := rfl
@[simp] theorem State.setFb_key (s : State) (g : Framebuffer) : (s.setFb g).key = s.key := rfl
@[simp] theorem State.setFb_fb (s : State) (g : Framebuffer) : (s.setFb g).fb = g := rfl
@[simp] theorem State.setFb_mem (s : State) (g : Framebuffer) : (s.setFb g).mem = s.mem := rfl
@[simp] theorem State.setFb_renderReq (s : State) (g : Framebuffer) : (s.setFb g).renderReq = s.renderReq := rfl
@[simp] theorem State.setFb_beepReq (s : State) (g : Framebuffer) : (s.setFb g).beepReq = s.beepReq := rfl
@[simp] theorem State.setFb_errLog (s : State) (g : Framebuffer) : (s.setFb g).errLog = s.errLog := rfl
@[simp] theorem State.setFb_result (s : State) (g : Framebuffer) : (s.setFb g).result = s.result := rfl
@[simp] theorem State.setFb_loadResult (s : State) (g : Framebuffer) : (s.setFb g).loadResult = s.loadResult := rfl
@[simp] theorem State.setFb_inited (s : State) (g : Framebuffer) : (s.setFb g).inited = s.inited := rfl
@[simp] theorem State.setFb_params (s : State) (g : Framebuffer) : (s.setFb g).params = s.params := rfl
@[simp] theorem State.setFb_pending (s : State) (g : Framebuffer) : (s.setFb g).pending = s.pending := rfl
@[simp] theorem State.setFb_randomIn (s : State) (g : Framebuffer) : (s.setFb g).randomIn = s.randomIn := rfl
@[simp] theorem State.setFb_draws (s : State) (g : Framebuffer) : (s.setFb g).draws = s.draws := rfl

/-! ### `State.reportWaiting` -/

@[simp] theorem State.reportWaiting_v (s : State) : (s.reportWaiting).v = s.v := rfl
@[simp] theorem State.reportWaiting_i (s : State) : (s.reportWaiting).i = s.i := rfl
@[simp] theorem State.reportWaiting_pc (s : State) : (s.reportWaiting).pc = s.pc := rfl
@[simp] theorem State.reportWaiting_stack (s : State) : (s.reportWaiting).stack = s.stack := rfl
@[simp] theorem State.reportWaiting_sp (s : State) : (s.reportWaiting).sp = s.sp := rfl
@[simp] theorem State.reportWaiting_dt (s : State) : (s.reportWaiting).dt = s.dt := rfl
@[simp] theorem State.reportWaiting_st (s : State) : (s.reportWaiting).st = s.st := rfl
@[simp] theorem State.reportWaiting_key (s : State) : (s.reportWaiting).key = s.key := rfl
@[simp] theorem State.reportWaiting_fb (s : State) : (s.reportWaiting).fb = s.fb := rfl
@[simp] theorem State.reportWaiting_mem (s : State) : (s.reportWaiting).mem = s.mem := rfl
@[simp] theorem State.reportWaiting_renderReq (s : State) : (s.reportWaiting).renderReq = s.renderReq := rfl
@[simp] theorem State.reportWaiting_beepReq (s : State) : (s.reportWaiting).beepReq = s.beepReq := rfl
@[simp] theorem State.reportWaiting_errLog (s : State) : (s.reportWaiting).errLog = s.errLog := rfl
@[simp] theorem State.reportWaiting_result (s : State) :
    (s.reportWaiting).result = { s.result with waiting := true } := rfl
@[simp] theorem State.reportWaiting_loadResult (s : State) : (s.reportWaiting).loadResult = s.loadResult := rfl
@[simp] theorem State.reportWaiting_inited (s : State) : (s.reportWaiting).inited = s.inited := rfl
@[simp] theorem State.reportWaiting_params (s : State) : (s.reportWaiting).params = s.params := rfl
@[simp] theorem State.reportWaiting_pending (s : State) : (s.reportWaiting).pending = s.pending := rfl
@[simp] theorem State.reportWaiting_randomIn (s : State) : (s.reportWaiting).randomIn = s.randomIn := rfl
@[simp] theorem State.reportWaiting_draws (s : State) : (s.reportWaiting).draws = s.draws := rfl

/-! ### `State.jumpTo` -/

@[simp] theorem State.jumpTo_v (s : State) (w : Word) : (s.jumpTo w).v = s.v := rfl
@[simp] theorem State.jumpTo_i (s : State) (w : Word) : (s.jumpTo w).i = s.i := rfl
@[simp] theorem State.jumpTo_pc (s : State) (w : Word) : (s.jumpTo w).pc = w := rfl
@[simp] theorem State.jumpTo_stack (s : State) (w : Word) : (s.jumpTo w).stack = s.stack := rfl
@[simp] theorem State.jumpTo_sp (s : State) (w : Word) : (s.jumpTo w).sp = s.sp := rfl
@[simp] theorem State.jumpTo_dt (s : State) (w : Word) : (s.jumpTo w).dt = s.dt := rfl
@[simp] theorem State.jumpTo_st (s : State) (w : Word) : (s.jumpTo w).st = s.st := rfl
@[simp] theorem State.jumpTo_key (s : State) (w : Word) : (s.jumpTo w).key = s.key := rfl
@[simp] theorem State.jumpTo_fb (s : State) (w : Word) : (s.jumpTo w).fb = s.fb := rfl
@[simp] theorem State.jumpTo_mem (s : State) (w : Word) : (s.jumpTo w).mem = s.mem := rfl
@[simp] theorem State.jumpTo_renderReq (s : State) (w : Word) : (s.jumpTo w).renderReq = s.renderReq := rfl
@[simp] theorem State.jumpTo_beepReq (s : State) (w : Word) : (s.jumpTo w).beepReq = s.beepReq := rfl
@[simp] theorem State.jumpTo_errLog (s : State) (w : Word) : (s.jumpTo w).errLog = s.errLog := rfl
@[simp] theorem State.jumpTo_result (s : State) (w : Word) : (s.jumpTo w).result = s.result := rfl
@[simp] theorem State.jumpTo_loadResult (s : State) (w : Word) : (s.jumpTo w).loadResult = s.loadResult := rfl
@[simp] theorem State.jumpTo_inited (s : State) (w : Word) : (s.jumpTo w).inited = s.inited := rfl
@[simp] theorem State.jumpTo_params (s : State) (w : Word) : (s.jumpTo w).params = s.params := rfl
@[simp] theorem State.jumpTo_pending (s : State) (w : Word) : (s.jumpTo w).pending = s.pending := rfl
@[simp] theorem State.jumpTo_randomIn (s : State) (w : Word) : (s.jumpTo w).randomIn = s.randomIn := rfl
@[simp] theorem State.jumpTo_draws (s : State) (w : Word) : (s.jumpTo w).draws = s.draws := rfl

/-! ### `State.advance` -/

@[simp] theorem State.advance_v (s : State) : (s.advance).v = s.v := rfl
@[simp] theorem State.advance_i (s : State) : (s.advance).i = s.i := rfl
@[simp] theorem State.advance_pc (s : State) : (s.advance).pc = s.pc + 2 := rfl
@[simp] theorem State.advance_stack (s : State) : (s.advance).stack = s.stack := rfl
@[simp] theorem State.advance_sp (s : State) : (s.advance).sp = s.sp := rfl
@[simp] theorem State.advance_dt (s : State) : (s.advance).dt = s.dt := rfl
@[simp] theorem State.advance_st (s : State) : (s.advance).st = s.st := rfl
@[simp] theorem State.advance_key (s : State) : (s.advance).key = s.key := rfl
@[simp] theorem State.advance_fb (s : State) : (s.advance).fb = s.fb := rfl
@[simp] theorem State.advance_mem (s : State) : (s.advance).mem = s.mem := rfl
@[simp] theorem State.advance_renderReq (s : State) : (s.advance).renderReq = s.renderReq := rfl
@[simp] theorem State.advance_beepReq (s : State) : (s.advance).beepReq = s.beepReq := rfl
@[simp] theorem State.advance_errLog (s : State) : (s.advance).errLog = s.errLog := rfl
@[simp] theorem State.advance_result (s : State) : (s.advance).result = s.result := rfl
@[simp] theorem State.advance_loadResult (s : State) : (s.advance).loadResult = s.loadResult := rfl
@[simp] theorem State.advance_inited (s : State) : (s.advance).inited = s.inited := rfl
@[simp] theorem State.advance_params (s : State) : (s.advance).params = s.params := rfl
@[simp] theorem State.advance_pending (s : State) : (s.advance).pending = s.pending := rfl
@[simp] theorem State.advance_randomIn (s : State) : (s.advance).randomIn = s.randomIn := rfl
@[simp] theorem State.advance_draws (s : State) : (s.advance).draws = s.draws := rfl

/-! ### `State.skipIf` -/

@[simp] theorem State.skipIf_v (s : State) (c : Bool) : (s.skipIf c).v = s.v := rfl
@[simp] theorem State.skipIf_i (s : State) (c : Bool) : (s.skipIf c).i = s.i := rfl
@[simp] theorem State.skipIf_pc (s : State) (c : Bool) : (s.skipIf c).pc = s.pc + (if c then 4 else 2) := rfl
@[simp] theorem State.skipIf_stack (s : State) (c : Bool) : (s.skipIf c).stack = s.stack := rfl
@[simp] theorem State.skipIf_sp (s : State) (c : Bool) : (s.skipIf c).sp = s.sp := rfl
@[simp] theorem State.skipIf_dt (s : State) (c : Bool) : (s.skipIf c).dt = s.dt := rfl
@[simp] theorem State.skipIf_st (s : State) (c : Bool) : (s.skipIf c).st = s.st := rfl
@[simp] theorem State.skipIf_key (s : State) (c : Bool) : (s.skipIf c).key = s.key := rfl
@[simp] theorem State.skipIf_fb (s : State) (c : Bool) : (s.skipIf c).fb = s.fb := rfl
@[simp] theorem State.skipIf_mem (s : State) (c : Bool) : (s.skipIf c).mem = s.mem := rfl
@[simp] theorem State.skipIf_renderReq (s : State) (c : Bool) : (s.skipIf c).renderReq = s.renderReq := rfl
@[simp] theorem State.skipIf_beepReq (s : State) (c : Bool) : (s.skipIf c).beepReq = s.beepReq := rfl
@[simp] theorem State.skipIf_errLog (s : State) (c : Bool) : (s.skipIf c).errLog = s.errLog := rfl
@[simp] theorem State.skipIf_result (s : State) (c : Bool) : (s.skipIf c).result = s.result := rfl
@[simp] theorem State.skipIf_loadResult (s : State) (c : Bool) : (s.skipIf c).loadResult = s.loadResult := rfl
@[simp] theorem State.skipIf_inited (s : State) (c : Bool) : (s.skipIf c).inited = s.inited := rfl
@[simp] theorem State.skipIf_params (s : State) (c : Bool) : (s.skipIf c).params = s.params := rfl
@[simp] theorem State.skipIf_pending (s : State) (c : Bool) : (s.skipIf c).pending = s.pending := rfl
@[simp] theorem State.skipIf_randomIn (s : State) (c : Bool) : (s.skipIf c).randomIn = s.randomIn := rfl
@[simp] theorem State.skipIf_draws (s : State) (c : Bool) : (s.skipIf c).draws = s.draws := rfl

/-! ### `State.setFlag` -/

@[simp] theorem State.setFlag_v (s : State) (c : Bool) : (s.setFlag c).v = s.v.set 15 (flagByte c) := rfl
@[simp] theorem State.setFlag_i (s : State) (c : Bool) : (s.setFlag c).i = s.i := rfl
@[simp] theorem State.setFlag_pc (s : State) (c : Bool) : (s.setFlag c).pc = s.pc := rfl
@[simp] theorem State.setFlag_stack (s : State) (c : Bool) : (s.setFlag c).stack = s.stack := rfl
@[simp] theorem State.setFlag_sp (s : State) (c : Bool) : (s.setFlag c).sp = s.sp := rfl
@[simp] theorem State.setFlag_dt (s : State) (c : Bool) : (s.setFlag c).dt = s.dt := rfl
@[simp] theorem State.setFlag_st (s : State) (c : Bool) : (s.setFlag c).st = s.st := rfl
@[simp] theorem State.setFlag_key (s : State) (c : Bool) : (s.setFlag c).key = s.key := rfl
@[simp] theorem State.setFlag_fb (s : State) (c : Bool) : (s.setFlag c).fb = s.fb := rfl
@[simp] theorem State.setFlag_mem (s : State) (c : Bool) : (s.setFlag c).mem = s.mem := rfl
@[simp] theorem State.setFlag_renderReq (s : State) (c : Bool) : (s.setFlag c).renderReq = s.renderReq := rfl
@[simp] theorem State.setFlag_beepReq (s : State) (c : Bool) : (s.setFlag c).beepReq = s.beepReq := rfl
@[simp] theorem State.setFlag_errLog (s : State) (c : Bool) : (s.setFlag c).errLog = s.errLog := rfl
@[simp] theorem State.setFlag_result (s : State) (c : Bool) : (s.setFlag c).result = s.result := rfl
@[simp] theorem State.setFlag_loadResult (s : State) (c : Bool) : (s.setFlag c).loadResult = s.loadResult := rfl
@[simp] theorem State.setFlag_inited (s : State) (c : Bool) : (s.setFlag c).inited = s.inited := rfl
@[simp] theorem State.setFlag_params (s : State) (c : Bool) : (s.setFlag c).params = s.params := rfl
@[simp] theorem State.setFlag_pending (s : State) (c : Bool) : (s.setFlag c).pending = s.pending := rfl
@[simp] theorem State.setFlag_randomIn (s : State) (c : Bool) : (s.setFlag c).randomIn = s.randomIn := rfl
@[simp] theorem State.setFlag_draws (s : State) (c : Bool) : (s.setFlag c).draws = s.draws := rfl

/-! ### `State.requestRender` -/

@[simp] theorem State.requestRender_v (s : State) : (s.requestRender).v = s.v := rfl
@[simp] theorem State.requestRender_i (s : State) : (s.requestRender).i = s.i := rfl
@[simp] theorem State.requestRender_pc (s : State) : (s.requestRender).pc = s.pc := rfl
@[simp] theorem State.requestRender_stack (s : State) : (s.requestRender).stack = s.stack := rfl
@[simp] theorem State.requestRender_sp (s : State) : (s.requestRender).sp = s.sp := rfl
@[simp] theorem State.requestRender_dt (s : State) : (s.requestRender).dt = s.dt := rfl
@[simp] theorem State.requestRender_st (s : State) : (s.requestRender).st = s.st := rfl
@[simp] theorem State.requestRender_key (s : State) : (s.requestRender).key = s.key := rfl
@[simp] theorem State.requestRender_fb (s : State) : (s.requestRender).fb = s.fb := rfl
@[simp] theorem State.requestRender_mem (s : State) : (s.requestRender).mem = s.mem := rfl
@[simp] theorem State.requestRender_renderReq (s : State) : (s.requestRender).renderReq = true := rfl
@[simp] theorem State.requestRender_beepReq (s : State) : (s.requestRender).beepReq = s.beepReq := rfl
@[simp] theorem State.requestRender_errLog (s : State) : (s.requestRender).errLog = s.errLog := rfl
@[simp] theorem State.requestRender_result (s : State) : (s.requestRender).result = s.result := rfl
@[simp] theorem State.requestRender_loadResult (s : State) : (s.requestRender).loadResult = s.loadResult := rfl
@[simp] theorem State.requestRender_inited (s : State) : (s.requestRender).inited = s.inited := rfl
@[simp] theorem State.requestRender_params (s : State) : (s.requestRender).params = s.params := rfl
@[simp] theorem State.requestRender_pending (s : State) : (s.requestRender).pending = s.pending := rfl
@[simp] theorem State.requestRender_randomIn (s : State) : (s.requestRender).randomIn = s.randomIn := rfl
@[simp] theorem State.requestRender_draws (s : State) : (s.requestRender).draws = s.draws := rfl

/-! ### `State.setByte` -/

@[simp] theorem State.setByte_v (s : State) (a : Nat) (b : Byte) : (s.setByte a b).v = s.v := rfl
@[simp] theorem State.setByte_i (s : State) (a : Nat) (b : Byte) : (s.setByte a b).i = s.i := rfl
@[simp] theorem State.setByte_pc (s : State) (a : Nat) (b : Byte) : (s.setByte a b).pc = s.pc := rfl
@[simp] theorem State.setByte_stack (s : State) (a : Nat) (b : Byte) : (s.setByte a b).stack = s.stack := rfl
@[simp] theorem State.setByte_sp (s : State) (a : Nat) (b : Byte) : (s.setByte a b).sp = s.sp := rfl
@[simp] theorem State.setByte_dt (s : State) (a : Nat) (b : Byte) : (s.setByte a b).dt = s.dt := rfl
@[simp] theorem State.setByte_st (s : State) (a : Nat) (b : Byte) : (s.setByte a b).st = s.st := rfl
@[simp] theorem State.setByte_key (s : State) (a : Nat) (b : Byte) : (s.setByte a b).key = s.key := rfl
@[simp] theorem State.setByte_fb (s : State) (a : Nat) (b : Byte) : (s.setByte a b).fb = s.fb := rfl
@[simp] theorem State.setByte_mem (s : State) (a : Nat) (b : Byte) :
    (s.setByte a b).mem = Memory.write s.params s.mem (mask a) b := rfl
@[simp] theorem State.setByte_renderReq (s : State) (a : Nat) (b : Byte) :
    (s.setByte a b).renderReq = s.renderReq := rfl
@[simp] theorem State.setByte_beepReq (s : State) (a : Nat) (b : Byte) : (s.setByte a b).beepReq = s.beepReq := rfl
@[simp] theorem State.setByte_errLog (s : State) (a : Nat) (b : Byte) : (s.setByte a b).errLog = s.errLog := rfl
@[simp] theorem State.setByte_result (s : State) (a : Nat) (b : Byte) : (s.setByte a b).result = s.result := rfl
@[simp] theorem State.setByte_loadResult (s : State) (a : Nat) (b : Byte) :
    (s.setByte a b).loadResult = s.loadResult := rfl
@[simp] theorem State.setByte_inited (s : State) (a : Nat) (b : Byte) : (s.setByte a b).inited = s.inited := rfl
@[simp] theorem State.setByte_params (s : State) (a : Nat) (b : Byte) : (s.setByte a b).params = s.params := rfl
@[simp] theorem State.setByte_pending (s : State) (a : Nat) (b : Byte) : (s.setByte a b).pending = s.pending := rfl
@[simp] theorem State.setByte_randomIn (s : State) (a : Nat) (b : Byte) : (s.setByte a b).randomIn = s.randomIn := rfl
@[simp] theorem State.setByte_draws (s : State) (a : Nat) (b : Byte) : (s.setByte a b).draws = s.draws := rfl

/-! ### `raise` -/

@[simp] theorem raise_v (e : ErrorClass) (s : State) : (raise e s).v = s.v := rfl
@[simp] theorem raise_i (e : ErrorClass) (s : State) : (raise e s).i = s.i := rfl
@[simp] theorem raise_pc (e : ErrorClass) (s : State) : (raise e s).pc = s.pc := rfl
@[simp] theorem raise_stack (e : ErrorClass) (s : State) : (raise e s).stack = s.stack := rfl
@[simp] theorem raise_sp (e : ErrorClass) (s : State) : (raise e s).sp = s.sp := rfl
@[simp] theorem raise_dt (e : ErrorClass) (s : State) : (raise e s).dt = s.dt := rfl
@[simp] theorem raise_st (e : ErrorClass) (s : State) : (raise e s).st = s.st := rfl
@[simp] theorem raise_key (e : ErrorClass) (s : State) : (raise e s).key = s.key := rfl
@[simp] theorem raise_fb (e : ErrorClass) (s : State) : (raise e s).fb = s.fb := rfl
@[simp] theorem raise_mem (e : ErrorClass) (s : State) : (raise e s).mem = s.mem := rfl
@[simp] theorem raise_renderReq (e : ErrorClass) (s : State) : (raise e s).renderReq = s.renderReq := rfl
@[simp] theorem raise_beepReq (e : ErrorClass) (s : State) : (raise e s).beepReq = s.beepReq := rfl
@[simp] theorem raise_errLog (e : ErrorClass) (s : State) : (raise e s).errLog = s.errLog ||| e.bit := rfl
@[simp] theorem raise_result (e : ErrorClass) (s : State) :
    (raise e s).result = { s.result with err := s.result.err ||| e.bit } := rfl
@[simp] theorem raise_loadResult (e : ErrorClass) (s : State) : (raise e s).loadResult = s.loadResult := rfl
@[simp] theorem raise_inited (e : ErrorClass) (s : State) : (raise e s).inited = s.inited := rfl
@[simp] theorem raise_params (e : ErrorClass) (s : State) : (raise e s).params = s.params := rfl
@[simp] theorem raise_pending (e : ErrorClass) (s : State) : (raise e s).pending = s.pending := rfl
@[simp] theorem raise_randomIn (e : ErrorClass) (s : State) : (raise e s).randomIn = s.randomIn := rfl
@[simp] theorem raise_draws (e : ErrorClass) (s : State) : (raise e s).draws = s.draws := rfl

/-! ### `State.recordOp` -/

@[simp] theorem State.recordOp_v (s : State) (op : Word) : (s.recordOp op).v = s.v := rfl
@[simp] theorem State.recordOp_i (s : State) (op : Word) : (s.recordOp op).i = s.i := rfl
@[simp] theorem State.recordOp_pc (s : State) (op : Word) : (s.recordOp op).pc = s.pc := rfl
@[simp] theorem State.recordOp_stack (s : State) (op : Word) : (s.recordOp op).stack = s.stack := rfl
@[simp] theorem State.recordOp_sp (s : State) (op : Word) : (s.recordOp op).sp = s.sp := rfl
@[simp] theorem State.recordOp_dt (s : State) (op : Word) : (s.recordOp op).dt = s.dt := rfl
@[simp] theorem State.recordOp_st (s : State) (op : Word) : (s.recordOp op).st = s.st := rfl
@[simp] theorem State.recordOp_key (s : State) (op : Word) : (s.recordOp op).key = s.key := rfl
@[simp] theorem State.recordOp_fb (s : State) (op : Word) : (s.recordOp op).fb = s.fb := rfl
@[simp] theorem State.recordOp_mem (s : State) (op : Word) : (s.recordOp op).mem = s.mem := rfl
@[simp] theorem State.recordOp_renderReq (s : State) (op : Word) : (s.recordOp op).renderReq = s.renderReq := rfl
@[simp] theorem State.recordOp_beepReq (s : State) (op : Word) : (s.recordOp op).beepReq = s.beepReq := rfl
@[simp] theorem State.recordOp_errLog (s : State) (op : Word) : (s.recordOp op).errLog = s.errLog := rfl
@[simp] theorem State.recordOp_result (s : State) (op : Word) :
    (s.recordOp op).result = { s.result with op := op } := rfl
@[simp] theorem State.recordOp_loadResult (s : State) (op : Word) : (s.recordOp op).loadResult = s.loadResult := rfl
@[simp] theorem State.recordOp_inited (s : State) (op : Word) : (s.recordOp op).inited = s.inited := rfl
@[simp] theorem State.recordOp_params (s : State) (op : Word) : (s.recordOp op).params = s.params := rfl
@[simp] theorem State.recordOp_pending (s : State) (op : Word) : (s.recordOp op).pending = s.pending := rfl
@[simp] theorem State.recordOp_randomIn (s : State) (op : Word) : (s.recordOp op).randomIn = s.randomIn := rfl
@[simp] theorem State.recordOp_draws (s : State) (op : Word) : (s.recordOp op).draws = s.draws := rfl

/-! ### `beginCycle` -/

@[simp] theorem beginCycle_v (r : Option Byte) (s : State) : (beginCycle r s).v = s.v := rfl
@[simp] theorem beginCycle_i (r : Option Byte) (s : State) : (beginCycle r s).i = s.i := rfl
@[simp] theorem beginCycle_pc (r : Option Byte) (s : State) : (beginCycle r s).pc = s.pc := rfl
@[simp] theorem beginCycle_stack (r : Option Byte) (s : State) : (beginCycle r s).stack = s.stack := rfl
@[simp] theorem beginCycle_sp (r : Option Byte) (s : State) : (beginCycle r s).sp = s.sp := rfl
@[simp] theorem beginCycle_dt (r : Option Byte) (s : State) : (beginCycle r s).dt = s.dt := rfl
@[simp] theorem beginCycle_st (r : Option Byte) (s : State) : (beginCycle r s).st = s.st := rfl
@[simp] theorem beginCycle_key (r : Option Byte) (s : State) : (beginCycle r s).key = s.key := rfl
@[simp] theorem beginCycle_fb (r : Option Byte) (s : State) : (beginCycle r s).fb = s.fb := rfl
@[simp] theorem beginCycle_mem (r : Option Byte) (s : State) : (beginCycle r s).mem = s.mem := rfl
@[simp] theorem beginCycle_renderReq (r : Option Byte) (s : State) : (beginCycle r s).renderReq = s.renderReq := rfl
@[simp] theorem beginCycle_beepReq (r : Option Byte) (s : State) : (beginCycle r s).beepReq = s.beepReq := rfl
@[simp] theorem beginCycle_errLog (r : Option Byte) (s : State) : (beginCycle r s).errLog = s.errLog := rfl
@[simp] theorem beginCycle_result (r : Option Byte) (s : State) :
    (beginCycle r s).result = { CycleResult.blank with pcAt := s.pc } := rfl
@[simp] theorem beginCycle_loadResult (r : Option Byte) (s : State) :
    (beginCycle r s).loadResult = s.loadResult := rfl
@[simp] theorem beginCycle_inited (r : Option Byte) (s : State) : (beginCycle r s).inited = s.inited := rfl
@[simp] theorem beginCycle_params (r : Option Byte) (s : State) : (beginCycle r s).params = s.params := rfl
@[simp] theorem beginCycle_pending (r : Option Byte) (s : State) : (beginCycle r s).pending = s.pending := rfl
@[simp] theorem beginCycle_randomIn (r : Option Byte) (s : State) : (beginCycle r s).randomIn = r := rfl
@[simp] theorem beginCycle_draws (r : Option Byte) (s : State) : (beginCycle r s).draws = s.draws := rfl

/-! ### `endCycle` -/

@[simp] theorem endCycle_v (s : State) : (endCycle s).v = s.v := rfl
@[simp] theorem endCycle_i (s : State) : (endCycle s).i = s.i := rfl
@[simp] theorem endCycle_pc (s : State) : (endCycle s).pc = s.pc := rfl
@[simp] theorem endCycle_stack (s : State) : (endCycle s).stack = s.stack := rfl
@[simp] theorem endCycle_sp (s : State) : (endCycle s).sp = s.sp := rfl
@[simp] theorem endCycle_dt (s : State) : (endCycle s).dt = s.dt := rfl
@[simp] theorem endCycle_st (s : State) : (endCycle s).st = s.st := rfl
@[simp] theorem endCycle_key (s : State) : (endCycle s).key = s.key := rfl
@[simp] theorem endCycle_fb (s : State) : (endCycle s).fb = s.fb := rfl
@[simp] theorem endCycle_mem (s : State) : (endCycle s).mem = s.mem := rfl
@[simp] theorem endCycle_renderReq (s : State) : (endCycle s).renderReq = s.renderReq := rfl
@[simp] theorem endCycle_beepReq (s : State) : (endCycle s).beepReq = s.beepReq := rfl
@[simp] theorem endCycle_errLog (s : State) : (endCycle s).errLog = s.errLog := rfl
@[simp] theorem endCycle_result (s : State) : (endCycle s).result = s.result := rfl
@[simp] theorem endCycle_loadResult (s : State) : (endCycle s).loadResult = s.loadResult := rfl
@[simp] theorem endCycle_inited (s : State) : (endCycle s).inited = s.inited := rfl
@[simp] theorem endCycle_params (s : State) : (endCycle s).params = s.params := rfl
@[simp] theorem endCycle_pending (s : State) : (endCycle s).pending = s.pending := rfl
@[simp] theorem endCycle_randomIn (s : State) : (endCycle s).randomIn = none := rfl
@[simp] theorem endCycle_draws (s : State) : (endCycle s).draws = s.draws := rfl

/-! ### `checkAddress`: the fields it never writes -/

@[simp] theorem checkAddress_v (a : Nat) (s : State) : (checkAddress a s).v = s.v := by unfold checkAddress; split <;> rfl
@[simp] theorem checkAddress_i (a : Nat) (s : State) : (checkAddress a s).i = s.i := by unfold checkAddress; split <;> rfl
@[simp] theorem checkAddress_pc (a : Nat) (s : State) : (checkAddress a s).pc = s.pc := by unfold checkAddress; split <;> rfl
@[simp] theorem checkAddress_stack (a : Nat) (s : State) : (checkAddress a s).stack = s.stack := by unfold checkAddress; split <;> rfl
@[simp] theorem checkAddress_sp (a : Nat) (s : State) : (checkAddress a s).sp = s.sp := by unfold checkAddress; split <;> rfl
@[simp] theorem checkAddress_dt (a : Nat) (s : State) : (checkAddress a s).dt = s.dt := by unfold checkAddress; split <;> rfl
@[simp] theorem checkAddress_st (a : Nat) (s : State) : (checkAddress a s).st = s.st := by unfold checkAddress; split <;> rfl
@[simp] theorem checkAddress_key (a : Nat) (s : State) : (checkAddress a s).key = s.key := by unfold checkAddress; split <;> rfl
@[simp] theorem checkAddress_fb (a : Nat) (s : State) : (checkAddress a s).fb = s.fb := by unfold checkAddress; split <;> rfl
@[simp] theorem checkAddress_mem (a : Nat) (s : State) : (checkAddress a s).mem = s.mem := by unfold checkAddress; split <;> rfl
@[simp] theorem checkAddress_renderReq (a : Nat) (s : State) : (checkAddress a s).renderReq = s.renderReq := by unfold checkAddress; split <;> rfl
@[simp] theorem checkAddress_beepReq (a : Nat) (s : State) : (checkAddress a s).beepReq = s.beepReq := by unfold checkAddress; split <;> rfl
@[simp] theorem checkAddress_loadResult (a : Nat) (s : State) : (checkAddress a s).loadResult = s.loadResult := by unfold checkAddress; split <;> rfl
@[simp] theorem checkAddress_inited (a : Nat) (s : State) : (checkAddress a s).inited = s.inited := by unfold checkAddress; split <;> rfl
@[simp] theorem checkAddress_params (a : Nat) (s : State) : (checkAddress a s).params = s.params := by unfold checkAddress; split <;> rfl
@[simp] theorem checkAddress_pending (a : Nat) (s : State) : (checkAddress a s).pending = s.pending := by unfold checkAddress; split <;> rfl
@[simp] theorem checkAddress_randomIn (a : Nat) (s : State) : (checkAddress a s).randomIn = s.randomIn := by unfold checkAddress; split <;> rfl
@[simp] theorem checkAddress_draws (a : Nat) (s : State) : (checkAddress a s).draws = s.draws := by unfold checkAddress; split <;> rfl

/-! ### `State.logicFlag`: the fields it never writes -/

@[simp] theorem State.logicFlag_i (s : State) : (s.logicFlag).i = s.i := by unfold State.logicFlag; split <;> rfl
@[simp] theorem State.logicFlag_pc (s : State) : (s.logicFlag).pc = s.pc := by unfold State.logicFlag; split <;> rfl
@[simp] theorem State.logicFlag_stack (s : State) : (s.logicFlag).stack = s.stack := by unfold State.logicFlag; split <;> rfl
@[simp] theorem State.logicFlag_sp (s : State) : (s.logicFlag).sp = s.sp := by unfold State.logicFlag; split <;> rfl
@[simp] theorem State.logicFlag_dt (s : State) : (s.logicFlag).dt = s.dt := by unfold State.logicFlag; split <;> rfl
@[simp] theorem State.logicFlag_st (s : State) : (s.logicFlag).st = s.st := by unfold State.logicFlag; split <;> rfl
@[simp] theorem State.logicFlag_key (s : State) : (s.logicFlag).key = s.key := by unfold State.logicFlag; split <;> rfl
@[simp] theorem State.logicFlag_fb (s : State) : (s.logicFlag).fb = s.fb := by unfold State.logicFlag; split <;> rfl
@[simp] theorem State.logicFlag_mem (s : State) : (s.logicFlag).mem = s.mem := by unfold State.logicFlag; split <;> rfl
@[simp] theorem State.logicFlag_renderReq (s : State) : (s.logicFlag).renderReq = s.renderReq := by unfold State.logicFlag; split <;> rfl
@[simp] theorem State.logicFlag_beepReq (s : State) : (s.logicFlag).beepReq = s.beepReq := by unfold State.logicFlag; split <;> rfl
@[simp] theorem State.logicFlag_errLog (s : State) : (s.logicFlag).errLog = s.errLog := by unfold State.logicFlag; split <;> rfl
@[simp] theorem State.logicFlag_result (s : State) : (s.logicFlag).result = s.result := by unfold State.logicFlag; split <;> rfl
@[simp] theorem State.logicFlag_loadResult (s : State) : (s.logicFlag).loadResult = s.loadResult := by unfold State.logicFlag; split <;> rfl
@[simp] theorem State.logicFlag_inited (s : State) : (s.logicFlag).inited = s.inited := by unfold State.logicFlag; split <;> rfl
@[simp] theorem State.logicFlag_params (s : State) : (s.logicFlag).params = s.params := by unfold State.logicFlag; split <;> rfl
@[simp] theorem State.logicFlag_pending (s : State) : (s.logicFlag).pending = s.pending := by unfold State.logicFlag; split <;> rfl
@[simp] theorem State.logicFlag_randomIn (s : State) : (s.logicFlag).randomIn = s.randomIn := by unfold State.logicFlag; split <;> rfl
@[simp] theorem State.logicFlag_draws (s : State) : (s.logicFlag).draws = s.draws := by unfold State.logicFlag; split <;> rfl

/-! ### `State.indexFlag`: the fields it never writes -/

@[simp] theorem State.indexFlag_i (s : State) (c : Bool) : (s.indexFlag c).i = s.i := by unfold State.indexFlag; split <;> rfl
@[simp] theorem State.indexFlag_pc (s : State) (c : Bool) : (s.indexFlag c).pc = s.pc := by unfold State.indexFlag; split <;> rfl
@[simp] theorem State.indexFlag_stack (s : State) (c : Bool) : (s.indexFlag c).stack = s.stack := by unfold State.indexFlag; split <;> rfl
@[simp] theorem State.indexFlag_sp (s : State) (c : Bool) : (s.indexFlag c).sp = s.sp := by unfold State.indexFlag; split <;> rfl
@[simp] theorem State.indexFlag_dt (s : State) (c : Bool) : (s.indexFlag c).dt = s.dt := by unfold State.indexFlag; split <;> rfl
@[simp] theorem State.indexFlag_st (s : State) (c : Bool) : (s.indexFlag c).st = s.st := by unfold State.indexFlag; split <;> rfl
@[simp] theorem State.indexFlag_key (s : State) (c : Bool) : (s.indexFlag c).key = s.key := by unfold State.indexFlag; split <;> rfl
@[simp] theorem State.indexFlag_fb (s : State) (c : Bool) : (s.indexFlag c).fb = s.fb := by unfold State.indexFlag; split <;> rfl
@[simp] theorem State.indexFlag_mem (s : State) (c : Bool) : (s.indexFlag c).mem = s.mem := by unfold State.indexFlag; split <;> rfl
@[simp] theorem State.indexFlag_renderReq (s : State) (c : Bool) : (s.indexFlag c).renderReq = s.renderReq := by unfold State.indexFlag; split <;> rfl
@[simp] theorem State.indexFlag_beepReq (s : State) (c : Bool) : (s.indexFlag c).beepReq = s.beepReq := by unfold State.indexFlag; split <;> rfl
@[simp] theorem State.indexFlag_errLog (s : State) (c : Bool) : (s.indexFlag c).errLog = s.errLog := by unfold State.indexFlag; split <;> rfl
@[simp] theorem State.indexFlag_result (s : State) (c : Bool) : (s.indexFlag c).result = s.result := by unfold State.indexFlag; split <;> rfl
@[simp] theorem State.indexFlag_loadResult (s : State) (c : Bool) : (s.indexFlag c).loadResult = s.loadResult := by unfold State.indexFlag; split <;> rfl
@[simp] theorem State.indexFlag_inited (s : State) (c : Bool) : (s.indexFlag c).inited = s.inited := by unfold State.indexFlag; split <;> rfl
@[simp] theorem State.indexFlag_params (s : State) (c : Bool) : (s.indexFlag c).params = s.params := by unfold State.indexFlag; split <;> rfl
@[simp] theorem State.indexFlag_pending (s : State) (c : Bool) : (s.indexFlag c).pending = s.pending := by unfold State.indexFlag; split <;> rfl
@[simp] theorem State.indexFlag_randomIn (s : State) (c : Bool) : (s.indexFlag c).randomIn = s.randomIn := by unfold State.indexFlag; split <;> rfl
@[simp] theorem State.indexFlag_draws (s : State) (c : Bool) : (s.indexFlag c).draws = s.draws := by unfold State.indexFlag; split <;> rfl

/-! ### `State.postIncrement`: the fields it never writes -/

@[simp] theorem State.postIncrement_v (s : State) (x : Reg) : (s.postIncrement x).v = s.v := by unfold State.postIncrement; split <;> rfl
@[simp] theorem State.postIncrement_pc (s : State) (x : Reg) : (s.postIncrement x).pc = s.pc := by unfold State.postIncrement; split <;> rfl
@[simp] theorem State.postIncrement_stack (s : State) (x : Reg) : (s.postIncrement x).stack = s.stack := by unfold State.postIncrement; split <;> rfl
@[simp] theorem State.postIncrement_sp (s : State) (x : Reg) : (s.postIncrement x).sp = s.sp := by unfold State.postIncrement; split <;> rfl
@[simp] theorem State.postIncrement_dt (s : State) (x : Reg) : (s.postIncrement x).dt = s.dt := by unfold State.postIncrement; split <;> rfl
@[simp] theorem State.postIncrement_st (s : State) (x : Reg) : (s.postIncrement x).st = s.st := by unfold State.postIncrement; split <;> rfl
@[simp] theorem State.postIncrement_key (s : State) (x : Reg) : (s.postIncrement x).key = s.key := by unfold State.postIncrement; split <;> rfl
@[simp] theorem State.postIncrement_fb (s : State) (x : Reg) : (s.postIncrement x).fb = s.fb := by unfold State.postIncrement; split <;> rfl
@[simp] theorem State.postIncrement_mem (s : State) (x : Reg) : (s.postIncrement x).mem = s.mem := by unfold State.postIncrement; split <;> rfl
@[simp] theorem State.postIncrement_renderReq (s : State) (x : Reg) : (s.postIncrement x).renderReq = s.renderReq := by unfold State.postIncrement; split <;> rfl
@[simp] theorem State.postIncrement_beepReq (s : State) (x : Reg) : (s.postIncrement x).beepReq = s.beepReq := by unfold State.postIncrement; split <;> rfl
@[simp] theorem State.postIncrement_errLog (s : State) (x : Reg) : (s.postIncrement x).errLog = s.errLog := by unfold State.postIncrement; split <;> rfl
@[simp] theorem State.postIncrement_result (s : State) (x : Reg) : (s.postIncrement x).result = s.result := by unfold State.postIncrement; split <;> rfl
@[simp] theorem State.postIncrement_loadResult (s : State) (x : Reg) : (s.postIncrement x).loadResult = s.loadResult := by unfold State.postIncrement; split <;> rfl
@[simp] theorem State.postIncrement_inited (s : State) (x : Reg) : (s.postIncrement x).inited = s.inited := by unfold State.postIncrement; split <;> rfl
@[simp] theorem State.postIncrement_params (s : State) (x : Reg) : (s.postIncrement x).params = s.params := by unfold State.postIncrement; split <;> rfl
@[simp] theorem State.postIncrement_pending (s : State) (x : Reg) : (s.postIncrement x).pending = s.pending := by unfold State.postIncrement; split <;> rfl
@[simp] theorem State.postIncrement_randomIn (s : State) (x : Reg) : (s.postIncrement x).randomIn = s.randomIn := by unfold State.postIncrement; split <;> rfl
@[simp] theorem State.postIncrement_draws (s : State) (x : Reg) : (s.postIncrement x).draws = s.draws := by unfold State.postIncrement; split <;> rfl

/-! ### `callTo`: the fields it never writes -/

@[simp] theorem callTo_v (w : Word) (s : State) : (callTo w s).v = s.v := by unfold callTo; split <;> rfl
@[simp] theorem callTo_i (w : Word) (s : State) : (callTo w s).i = s.i := by unfold callTo; split <;> rfl
@[simp] theorem callTo_dt (w : Word) (s : State) : (callTo w s).dt = s.dt := by unfold callTo; split <;> rfl
@[simp] theorem callTo_st (w : Word) (s : State) : (callTo w s).st = s.st := by unfold callTo; split <;> rfl
@[simp] theorem callTo_key (w : Word) (s : State) : (callTo w s).key = s.key := by unfold callTo; split <;> rfl
@[simp] theorem callTo_fb (w : Word) (s : State) : (callTo w s).fb = s.fb := by unfold callTo; split <;> rfl
@[simp] theorem callTo_mem (w : Word) (s : State) : (callTo w s).mem = s.mem := by unfold callTo; split <;> rfl
@[simp] theorem callTo_renderReq (w : Word) (s : State) : (callTo w s).renderReq = s.renderReq := by unfold callTo; split <;> rfl
@[simp] theorem callTo_beepReq (w : Word) (s : State) : (callTo w s).beepReq = s.beepReq := by unfold callTo; split <;> rfl
@[simp] theorem callTo_loadResult (w : Word) (s : State) : (callTo w s).loadResult = s.loadResult := by unfold callTo; split <;> rfl
@[simp] theorem callTo_inited (w : Word) (s : State) : (callTo w s).inited = s.inited := by unfold callTo; split <;> rfl
@[simp] theorem callTo_params (w : Word) (s : State) : (callTo w s).params = s.params := by unfold callTo; split <;> rfl
@[simp] theorem callTo_pending (w : Word) (s : State) : (callTo w s).pending = s.pending := by unfold callTo; split <;> rfl
@[simp] theorem callTo_randomIn (w : Word) (s : State) : (callTo w s).randomIn = s.randomIn := by unfold callTo; split <;> rfl
@[simp] theorem callTo_draws (w : Word) (s : State) : (callTo w s).draws = s.draws := by unfold callTo; split <;> rfl

/-! ### `returnToCaller`: the fields it never writes -/

@[simp] theorem returnToCaller_v (s : State) : (returnToCaller s).v = s.v := by unfold returnToCaller; split <;> rfl
@[simp] theorem returnToCaller_i (s : State) : (returnToCaller s).i = s.i := by unfold returnToCaller; split <;> rfl
@[simp] theorem returnToCaller_stack (s : State) : (returnToCaller s).stack = s.stack := by unfold returnToCaller; split <;> rfl
@[simp] theorem returnToCaller_dt (s : State) : (returnToCaller s).dt = s.dt := by unfold returnToCaller; split <;> rfl
@[simp] theorem returnToCaller_st (s : State) : (returnToCaller s).st = s.st := by unfold returnToCaller; split <;> rfl
@[simp] theorem returnToCaller_key (s : State) : (returnToCaller s).key = s.key := by unfold returnToCaller; split <;> rfl
@[simp] theorem returnToCaller_fb (s : State) : (returnToCaller s).fb = s.fb := by unfold returnToCaller; split <;> rfl
@[simp] theorem returnToCaller_mem (s : State) : (returnToCaller s).mem = s.mem := by unfold returnToCaller; split <;> rfl
@[simp] theorem returnToCaller_renderReq (s : State) : (returnToCaller s).renderReq = s.renderReq := by unfold returnToCaller; split <;> rfl
@[simp] theorem returnToCaller_beepReq (s : State) : (returnToCaller s).beepReq = s.beepReq := by unfold returnToCaller; split <;> rfl
@[simp] theorem returnToCaller_loadResult (s : State) : (returnToCaller s).loadResult = s.loadResult := by unfold returnToCaller; split <;> rfl
@[simp] theorem returnToCaller_inited (s : State) : (returnToCaller s).inited = s.inited := by unfold returnToCaller; split <;> rfl
@[simp] theorem returnToCaller_params (s : State) : (returnToCaller s).params = s.params := by unfold returnToCaller; split <;> rfl
@[simp] theorem returnToCaller_pending (s : State) : (returnToCaller s).pending = s.pending := by unfold returnToCaller; split <;> rfl
@[simp] theorem returnToCaller_randomIn (s : State) : (returnToCaller s).randomIn = s.randomIn := by unfold returnToCaller; split <;> rfl
@[simp] theorem returnToCaller_draws (s : State) : (returnToCaller s).draws = s.draws := by unfold returnToCaller; split <;> rfl

end Sys2Proof.Machine
end

