-- ==== Sys2Proof/Laws/Ops.lean ====
section
/-! SUPPORT. What each shared operation does, said once: registers, memory accesses and their reports, framebuffer cells,
the random byte, the call stack. Proofs about instructions cite these. -/

namespace Sys2Proof.Machine

/-! ### Registers -/

/-- A register after a register write. -/
theorem State.getV_setV (s : State) (r q : Reg) (b : Byte) : (s.setV r b).getV q = if q = r then b else s.getV q := by
  by_cases h : q = r
  · subst h; simp [State.getV, State.setV]
  · have : r.val ≠ q.val := fun e => h (Fin.ext e.symm)
    simp [State.getV, State.setV, h, this]

@[simp] theorem State.getV_setV_self (s : State) (r : Reg) (b : Byte) : (s.setV r b).getV r = b := by
  simp [State.getV_setV]

@[simp] theorem State.getV_setV_other (s : State) {r q : Reg} (b : Byte) (h : q ≠ r) :
    (s.setV r b).getV q = s.getV q := by simp [State.getV_setV, h]

/-- VF is written as register 15. -/
theorem State.getV_setFlag (s : State) (q : Reg) (c : Bool) :
    (s.setFlag c).getV q = if q = 15 then flagByte c else s.getV q := State.getV_setV s 15 q (flagByte c)

/-- Two states with one register file hold the same registers. -/
theorem State.getV_congr {s t : State} (h : t.v = s.v) (r : Reg) : t.getV r = s.getV r := by simp [State.getV, h]

/-- Register files that agree on every register are equal. -/
theorem State.v_ext {s t : State} (h : ∀ r, t.getV r = s.getV r) : t.v = s.v :=
  Vector.ext fun k hk => h ⟨k, hk⟩

@[simp] theorem State.getV_advance (s : State) (r : Reg) : s.advance.getV r = s.getV r := rfl
@[simp] theorem State.getV_setI (s : State) (w : Word) (r : Reg) : (s.setI w).getV r = s.getV r := rfl
@[simp] theorem State.getV_setDt (s : State) (b : Byte) (r : Reg) : (s.setDt b).getV r = s.getV r := rfl
@[simp] theorem State.getV_setSt (s : State) (b : Byte) (r : Reg) : (s.setSt b).getV r = s.getV r := rfl
@[simp] theorem State.getV_setFb (s : State) (g : Framebuffer) (r : Reg) : (s.setFb g).getV r = s.getV r := rfl
@[simp] theorem State.getV_reportWaiting (s : State) (r : Reg) : s.reportWaiting.getV r = s.getV r := rfl
@[simp] theorem State.getV_jumpTo (s : State) (w : Word) (r : Reg) : (s.jumpTo w).getV r = s.getV r := rfl
@[simp] theorem State.getV_skipIf (s : State) (c : Bool) (r : Reg) : (s.skipIf c).getV r = s.getV r := rfl
@[simp] theorem State.getV_requestRender (s : State) (r : Reg) : s.requestRender.getV r = s.getV r := rfl
@[simp] theorem State.getV_setByte (s : State) (a : Nat) (b : Byte) (r : Reg) : (s.setByte a b).getV r = s.getV r := rfl
@[simp] theorem State.getV_recordOp (s : State) (op : Word) (r : Reg) : (s.recordOp op).getV r = s.getV r := rfl
@[simp] theorem getV_raise (e : ErrorClass) (s : State) (r : Reg) : (raise e s).getV r = s.getV r := rfl
@[simp] theorem getV_beginCycle (o : Option Byte) (s : State) (r : Reg) : (beginCycle o s).getV r = s.getV r := rfl
@[simp] theorem getV_endCycle (s : State) (r : Reg) : (endCycle s).getV r = s.getV r := rfl
@[simp] theorem getV_checkAddress (a : Nat) (s : State) (r : Reg) : (checkAddress a s).getV r = s.getV r :=
  State.getV_congr (checkAddress_v a s) r
@[simp] theorem getV_postIncrement (s : State) (x r : Reg) : (s.postIncrement x).getV r = s.getV r :=
  State.getV_congr (State.postIncrement_v s x) r

/-! ### Flags -/

@[simp] theorem flagByte_true : flagByte true = 1 := rfl
@[simp] theorem flagByte_false : flagByte false = 0 := rfl

/-- The VF write of 8XY1..8XY3. -/
theorem State.getV_logicFlag (s : State) (q : Reg) :
    s.logicFlag.getV q = if s.params.logicVfReset = true ∧ q = 15 then 0 else s.getV q := by
  unfold State.logicFlag
  split
  · rename_i h; rw [State.getV_setFlag]; simp [h]
  · rename_i h; simp [h]

/-- The VF write of FX1E. -/
theorem State.getV_indexFlag (s : State) (c : Bool) (q : Reg) :
    (s.indexFlag c).getV q = if s.params.fx1eVf = true ∧ q = 15 then flagByte c else s.getV q := by
  unfold State.indexFlag
  split
  · rename_i h; rw [State.getV_setFlag]; simp [h]
  · rename_i h; simp [h]

/-! ### Memory -/

theorem mask_eq_mod (a : Nat) : mask a = a % 0x1000 := Nat.and_two_pow_sub_one_eq_mod a 12

theorem mask_lt (a : Nat) : mask a < memSize := by rw [mask_eq_mod]; exact Nat.mod_lt _ (by decide)

@[simp] theorem cell_val (a : Nat) : (cell a).val = a % 0x1000 := by simp [cell, mask_eq_mod]

/-- A byte depends on the masked address only. -/
theorem State.byteAt_mod (s : State) (a : Nat) : s.byteAt (a % 0x1000) = s.byteAt a := by
  simp [State.byteAt, mask_eq_mod]

/-- The byte at any address after a byte write (R52, R53). -/
theorem State.byteAt_setByte (s : State) (a b : Nat) (v : Byte) :
    (s.setByte a v).byteAt b = if b % 0x1000 = a % 0x1000 then v else s.byteAt b := by
  simp [State.byteAt, State.setByte, Memory.read_write, mask_eq_mod]

/-- Two states with one memory and one parameter set hold the same bytes. -/
theorem State.byteAt_congr {s t : State} (hm : t.mem = s.mem) (hp : t.params = s.params) (a : Nat) :
    t.byteAt a = s.byteAt a := by simp [State.byteAt, hm, hp]

@[simp] theorem State.byteAt_advance (s : State) (a : Nat) : s.advance.byteAt a = s.byteAt a := rfl
@[simp] theorem State.byteAt_jumpTo (s : State) (w : Word) (a : Nat) : (s.jumpTo w).byteAt a = s.byteAt a := rfl
@[simp] theorem State.byteAt_skipIf (s : State) (c : Bool) (a : Nat) : (s.skipIf c).byteAt a = s.byteAt a := rfl
@[simp] theorem State.byteAt_setDt (s : State) (b : Byte) (a : Nat) : (s.setDt b).byteAt a = s.byteAt a := rfl
@[simp] theorem State.byteAt_setSt (s : State) (b : Byte) (a : Nat) : (s.setSt b).byteAt a = s.byteAt a := rfl
@[simp] theorem State.byteAt_setFb (s : State) (g : Framebuffer) (a : Nat) : (s.setFb g).byteAt a = s.byteAt a := rfl
@[simp] theorem State.byteAt_reportWaiting (s : State) (a : Nat) : s.reportWaiting.byteAt a = s.byteAt a := rfl
@[simp] theorem State.byteAt_setV (s : State) (r : Reg) (b : Byte) (a : Nat) : (s.setV r b).byteAt a = s.byteAt a := rfl
@[simp] theorem State.byteAt_setI (s : State) (w : Word) (a : Nat) : (s.setI w).byteAt a = s.byteAt a := rfl
@[simp] theorem State.byteAt_recordOp (s : State) (op : Word) (a : Nat) : (s.recordOp op).byteAt a = s.byteAt a := rfl
@[simp] theorem State.byteAt_requestRender (s : State) (a : Nat) : s.requestRender.byteAt a = s.byteAt a := rfl
@[simp] theorem State.byteAt_setFlag (s : State) (c : Bool) (a : Nat) : (s.setFlag c).byteAt a = s.byteAt a := rfl
@[simp] theorem byteAt_beginCycle (o : Option Byte) (s : State) (a : Nat) : (beginCycle o s).byteAt a = s.byteAt a := rfl
@[simp] theorem byteAt_endCycle (s : State) (a : Nat) : (endCycle s).byteAt a = s.byteAt a := rfl
@[simp] theorem byteAt_raise (e : ErrorClass) (s : State) (a : Nat) : (raise e s).byteAt a = s.byteAt a := rfl
@[simp] theorem byteAt_checkAddress (b : Nat) (s : State) (a : Nat) : (checkAddress b s).byteAt a = s.byteAt a :=
  State.byteAt_congr (checkAddress_mem b s) (checkAddress_params b s) a
@[simp] theorem byteAt_postIncrement (s : State) (x : Reg) (a : Nat) : (s.postIncrement x).byteAt a = s.byteAt a :=
  State.byteAt_congr (State.postIncrement_mem s x) (State.postIncrement_params s x) a

/-! ### Reports -/

@[simp] theorem bit_memoryOutOfBounds : ErrorClass.memoryOutOfBounds.bit = 8#4 := rfl
@[simp] theorem bit_stackUnderflow : ErrorClass.stackUnderflow.bit = 4#4 := rfl
@[simp] theorem bit_stackOverflow : ErrorClass.stackOverflow.bit = 2#4 := rfl
@[simp] theorem bit_unknownOpcode : ErrorClass.unknownOpcode.bit = 1#4 := rfl

/-- `raise` does what `Reports` says and nothing else (R13, R217). -/
theorem raise_reports (e : ErrorClass) (s : State) :
    Reports e s (raise e s) ∧
      raise e s = { s with result := { s.result with err := s.result.err ||| e.bit }, errLog := s.errLog ||| e.bit } :=
  ⟨⟨rfl, rfl, rfl⟩, rfl⟩

/-- The address check, whole: nothing below 0x1000, a report above (R52, R211). -/
theorem checkAddress_eq (a : Nat) (s : State) :
    checkAddress a s = if a > 0xFFF then
      { s with
        result := { s.result with
          err := s.result.err ||| 8#4
          oobAddr := if s.result.err.getLsbD 3 then s.result.oobAddr else BitVec.ofNat 17 a }
        errLog := s.errLog ||| 8#4 } else s := rfl

/-- A read: the byte at the masked address, and the state after the check (R52). -/
@[simp] theorem memRead_fst (a : Nat) (s : State) : (memRead a s).1 = s.byteAt a := rfl
@[simp] theorem memRead_snd (a : Nat) (s : State) : (memRead a s).2 = checkAddress a s := rfl

/-- The byte at any address after a masked write (R53). -/
theorem byteAt_memWrite (a b : Nat) (v : Byte) (s : State) :
    (memWrite a v s).byteAt b = if b % 0x1000 = a % 0x1000 then v else s.byteAt b := by
  rw [memWrite, State.byteAt_setByte, byteAt_checkAddress]

/-- A masked write keeps the canonical form of memory. -/
theorem wf_memWrite (a : Nat) (v : Byte) (s : State) (h : Memory.wf s.params s.mem = true) :
    Memory.wf (memWrite a v s).params (memWrite a v s).mem = true := by
  simpa [memWrite] using Memory.wf_write s.mem (mask a) v (mask_lt a) h

/-! ### The call stack -/

/-- CALL's operation with a free slot (R103). -/
theorem callTo_of_lt (w : Word) (s : State) (h : s.sp.val < 16) :
    callTo w s =
      { s with stack := s.stack.set s.sp.val (s.pc + 2) h, sp := ⟨s.sp.val + 1, Nat.succ_lt_succ h⟩, pc := w } := by
  simp [callTo, h]

/-- CALL's operation with a full stack (R103, R213). -/
theorem callTo_of_full (w : Word) (s : State) (h : s.sp = 16) : callTo w s = (raise .stackOverflow s).advance := by
  simp [callTo, h]

/-- RET's operation with a pushed address (R101). -/
theorem returnToCaller_of_pos (s : State) (k : Fin 16) (h : s.sp.val = k.val + 1) :
    returnToCaller s = { s with sp := ⟨k.val, by omega⟩, pc := s.stack[k.val] } := by
  simp [returnToCaller, h]

/-- RET's operation with an empty stack (R101, R213). -/
theorem returnToCaller_of_empty (s : State) (h : s.sp = 0) :
    returnToCaller s = (raise .stackUnderflow s).advance := by
  simp [returnToCaller, h]

/-! ### Framebuffer cells -/

/-- A cell by its own coordinates. -/
theorem Framebuffer.get_eq (fb : Framebuffer) (x : Fin 64) (y : Fin 32) : fb.get x.val y.val = fb[y.val][x.val] := by
  simp [Framebuffer.get, Nat.mod_eq_of_lt]

/-- Any cell after a toggle. -/
theorem Framebuffer.get_toggle (fb : Framebuffer) (x y x' y' : Nat) :
    (fb.toggle x y).get x' y' =
      if x' % 64 = x % 64 ∧ y' % 32 = y % 32 then !fb.get x' y' else fb.get x' y' := by
  by_cases hy : y' % 32 = y % 32
  · by_cases hx : x' % 64 = x % 64
    · simp [Framebuffer.get, Framebuffer.toggle, hx, hy]
    · have : x % 64 ≠ x' % 64 := fun e => hx e.symm
      simp [Framebuffer.get, Framebuffer.toggle, hx, hy, this]
  · have : y % 32 ≠ y' % 32 := fun e => hy e.symm
    simp [Framebuffer.get, Framebuffer.toggle, hy, this]

/-- Framebuffers that agree on every cell are equal. -/
theorem Framebuffer.ext_get {f g : Framebuffer} (h : ∀ (x : Fin 64) (y : Fin 32), f.get x.val y.val = g.get x.val y.val) :
    f = g := by
  refine Vector.ext fun y hy => Vector.ext fun x hx => ?_
  have := h ⟨x, hx⟩ ⟨y, hy⟩
  rwa [Framebuffer.get_eq, Framebuffer.get_eq] at this

/-! ### The random byte -/

/-- A byte the host gave is the one drawn, and nothing changes (R226). -/
theorem randomByte_given {s : State} {r : Byte} (h : s.randomIn = some r) : randomByte s = (r, s) := by
  simp [randomByte, h]

/-- With no byte given the free value is drawn and counted (R14, U6). -/
theorem randomByte_free {s : State} (h : s.randomIn = none) :
    randomByte s = (Config.randomByte s.draws, { s with draws := s.draws + 1 }) := by
  simp [randomByte, h]

/-! ### The cycle -/

/-- The fetch: the opcode at pc, and the two reads' checks in order (R72). -/
theorem fetch_eq (s : State) :
    fetch s = (s.opcodeAtPc, checkAddress (s.pc.toNat + 1) (checkAddress s.pc.toNat s)) := by
  simp [fetch, State.opcodeAtPc, memRead]

/-- The opcode at pc depends on memory, the parameters and pc only. -/
theorem State.opcodeAtPc_congr {s t : State} (hm : t.mem = s.mem) (hp : t.params = s.params) (hpc : t.pc = s.pc) :
    t.opcodeAtPc = s.opcodeAtPc := by
  simp [State.opcodeAtPc, State.byteAt_congr hm hp, hpc]

@[simp] theorem opcodeAtPc_beginCycle (o : Option Byte) (s : State) : (beginCycle o s).opcodeAtPc = s.opcodeAtPc := rfl

/-- A cycle, with the fetched opcode named (R76). -/
theorem cycle_eq (o : Option Byte) (s : State) :
    cycle o s = mapNext endCycle (execDecoded (decode s.opcodeAtPc) (fetched o s)) := by
  simp [cycle, fetch_eq]

/-- `mapNext` answers next exactly from a next. -/
theorem mapNext_eq_next {f : State → State} {r : Result} {t : State} :
    mapNext f r = .next t ↔ ∃ u, r = .next u ∧ f u = t := by
  cases r <;> simp [mapNext]

end Sys2Proof.Machine
end

