-- ==== Sys2Proof/Laws/Frames.lean ====
section
/-! SUPPORT. Frames and reports composed, and what the loops do, said once: the stores of FX55, the loads of FX65, the sprite
loop of DXYN, the byte copy of LOAD. Proofs about instructions cite these. -/

namespace Sys2Proof.Machine

/-! ### Frames -/

/-- Every part is the same in a state and itself. -/
theorem Part.same_refl (s : State) (p : Part) : p.same s s := by cases p <;> simp [Part.same]

/-- A frame may be widened. -/
theorem onlyChanges_mono {s t : State} {ps qs : List Part} (h : OnlyChanges s t ps) (hs : ∀ p ∈ ps, p ∈ qs) : OnlyChanges s t qs :=
  fun p hp => h p fun hq => hp (hs p hq)
/-- Sameness of a part composes. -/
theorem Part.same_trans {s t u : State} {p : Part} (h : p.same s t) (h' : p.same t u) : p.same s u := by
  cases p <;> simp_all [Part.same]
/-- Frames compose. -/
theorem onlyChanges_trans {s t u : State} {ps : List Part} (h : OnlyChanges s t ps) (h' : OnlyChanges t u ps) : OnlyChanges s u ps :=
  fun p hp => Part.same_trans (h p hp) (h' p hp)

/-- Cells that agree give bytes that agree at every address. -/
theorem byteAt_of_same_cells {s t : State} (h : ∀ c : Fin 4096, Part.same s t (.mem c)) (a : Nat) :
    t.byteAt a = s.byteAt a := by
  have := h ⟨a % 4096, Nat.mod_lt _ (by decide)⟩
  simpa [Part.same, State.byteAt_mod] using this

/-- The cells of one byte more. -/
theorem storedCells_succ (a n : Nat) : storedCells a (n+1) = storedCells a n ++ [.mem (cell (a+n))] := by
  simp [storedCells, List.range_succ]

/-! ### Reports -/

@[simp] theorem checkAddress_result_waiting (a : Nat) (s : State) : (checkAddress a s).result.waiting = s.result.waiting := by
  rw [checkAddress_eq]; split <;> rfl
@[simp] theorem checkAddress_result_pcAt (a : Nat) (s : State) : (checkAddress a s).result.pcAt = s.result.pcAt := by
  rw [checkAddress_eq]; split <;> rfl
@[simp] theorem checkAddress_result_op (a : Nat) (s : State) : (checkAddress a s).result.op = s.result.op := by
  rw [checkAddress_eq]; split <;> rfl

/-- One access. -/
theorem reportsRange_one (a : Nat) (s : State) : ReportsRange a 1 s (checkAddress a s) := by
  rw [checkAddress_eq]
  unfold ReportsRange
  by_cases h : a > 0xFFF
  · have hm : max a 0x1000 = a := by omega
    simp [h, hm]
  · simp [h, Part.same]
/-- No access. -/
theorem reportsRange_zero (a : Nat) (s : State) : ReportsRange a 0 s s := by simp [ReportsRange, Part.same]
/-- A report depends on the result and the log only. -/
theorem reportsRange_congr {a n : Nat} {s t u : State}
    (h : ReportsRange a n s t) (hr : u.result = t.result) (he : u.errLog = t.errLog) :
    ReportsRange a n s u := by
  simpa [ReportsRange, Part.same, hr, he] using h
/-- One access more. -/
theorem reportsRange_succ {a n : Nat} {s t u : State} (h : ReportsRange a n s t)
    (hr : u.result = (checkAddress (a+n) t).result)
    (he : u.errLog = (checkAddress (a+n) t).errLog) :
    ReportsRange a (n + 1) s u := by
  rw [checkAddress_eq] at hr he
  unfold ReportsRange at h ⊢
  rw [hr, he]
  simp only [Part.same, hr, he]
  by_cases h1 : 0 < n ∧ a + (n-1) > 0xFFF
  · rw [if_pos h1] at h
    have h2 : a + n > 0xFFF := by omega
    have h3 : 0 < n + 1 ∧ a + (n + 1 - 1) > 0xFFF := by omega
    rw [if_pos h3]
    simp only [h2, if_true]
    obtain ⟨ha, hb, hc⟩ := h
    rw [ha, hb, hc]
    refine ⟨?_, ?_, ?_⟩
    · rw [BitVec.or_assoc]; rfl
    · rw [BitVec.or_assoc]; rfl
    · have : (s.result.err ||| 8#4).getLsbD 3 = true := by
        rw [BitVec.getLsbD_or]; simp
      rw [this]; simp
  · rw [if_neg h1] at h
    obtain ⟨ha, hb, hc⟩ := h
    by_cases h2 : a + n > 0xFFF
    · have h3 : 0 < n + 1 ∧ a + (n + 1 - 1) > 0xFFF := by omega
      rw [if_pos h3]
      simp only [h2, if_true]
      rw [ha, hb, hc]
      refine ⟨rfl, rfl, ?_⟩
      have : max a 0x1000 = a + n := by omega
      rw [this]
    · have h3 : ¬ (0 < n + 1 ∧ a + (n + 1 - 1) > 0xFFF) := by omega
      rw [if_neg h3]
      simp only [h2, if_false]
      exact ⟨ha, hb, hc⟩

/-- What a masked write changes. -/
theorem memWrite_onlyChanges (a : Nat) (v : Byte) (s : State) :
    OnlyChanges s (memWrite a v s) [.mem (cell a), .errors] := by
  intro p hp
  cases p <;> simp [Part.same, memWrite] at hp ⊢
  rename_i c
  rw [State.byteAt_setByte]
  have : c.val % 0x1000 ≠ a % 0x1000 := fun e => hp (Fin.ext (by simp; omega))
  simp [this]

/-- What a masked read changes. -/
theorem checkAddress_onlyChanges (a : Nat) (s : State) : OnlyChanges s (checkAddress a s) [.errors] := by
  intro p hp
  cases p <;> simp [Part.same] at hp ⊢

/-! ### The loops -/

/-- The stores of FX55 (R164): what they change, report and leave in memory. -/
theorem storeUpTo_spec (n : Nat) (hn : n ≤ 16) (s : State) :
    OnlyChanges s (storeUpTo n s) (storedCells s.i.toNat n ++ [.errors]) ∧
    ReportsRange s.i.toNat n s (storeUpTo n s) ∧
    ∀ k : Reg, k.val < n → (storeUpTo n s).byteAt (s.i.toNat + k.val) = s.getV k := by
  induction n with
  | zero => exact ⟨by intro p hp; cases p <;> simp [Part.same, storeUpTo], by simp [storeUpTo, ReportsRange, Part.same], by simp⟩
  | succ n ih =>
    obtain ⟨h1, h2, h3⟩ := ih (by omega)
    refine ⟨?_, ?_, ?_⟩
    · apply onlyChanges_trans (t := storeUpTo n s)
      · exact onlyChanges_mono h1 (by simp [storedCells_succ]; aesop)
      · exact onlyChanges_mono (memWrite_onlyChanges _ _ _) (by simp [storedCells_succ, State.indexPlus])
    · exact reportsRange_succ h2 rfl rfl
    · intro k hk
      rw [storeUpTo, byteAt_memWrite]
      split
      · rename_i he
        have : k.val = n := by simp [State.indexPlus] at he; omega
        congr 1; apply Fin.ext; simp [this]; omega
      · rename_i he
        have : k.val ≠ n := by intro e; apply he; simp [State.indexPlus, e]
        exact h3 k (by omega)

/-- The loads of FX65 (R165): what they change, report and leave in the registers. -/
theorem loadUpTo_spec (n : Nat) (hn : n ≤ 16) (s : State) :
    (∀ p : Part, p ≠ .errors → (∀ r, p ≠ .v r) → p.same s (loadUpTo n s)) ∧
    ReportsRange s.i.toNat n s (loadUpTo n s) ∧
    ∀ k : Reg, (loadUpTo n s).getV k = if k.val < n then s.byteAt (s.i.toNat + k.val) else s.getV k := by
  induction n with
  | zero => exact ⟨by intro p hp _; cases p <;> simp [Part.same, loadUpTo], by simp [loadUpTo, ReportsRange, Part.same], by simp [loadUpTo]⟩
  | succ n ih =>
    obtain ⟨h1, h2, h3⟩ := ih (by omega)
    have hi : (loadUpTo n s).i = s.i := h1 .i (by simp) (by simp)
    have e : loadUpTo (n+1) s = (checkAddress (s.i.toNat + n) (loadUpTo n s)).setV (Fin.ofNat 16 n) ((loadUpTo n s).byteAt (s.i.toNat + n)) := by
      simp [loadUpTo, memRead, State.indexPlus, hi]
    rw [e]
    refine ⟨?_, ?_, ?_⟩
    · intro p hp hv
      apply Part.same_trans (h1 p hp hv)
      cases p <;> simp [Part.same, checkAddress_result_waiting, checkAddress_result_pcAt,
        checkAddress_result_op] at hp hv ⊢
    · exact reportsRange_succ h2 rfl rfl
    · intro k
      rw [State.getV_setV, getV_checkAddress, h3]
      have hb : ∀ a, (loadUpTo n s).byteAt a = s.byteAt a := by
        intro a
        have := h1 (.mem ⟨a % 4096, by omega⟩) (by simp) (by simp)
        simpa [Part.same, State.byteAt_mod] using this
      rw [hb]
      by_cases hk : k.val = n
      · have : k = Fin.ofNat 16 n := by apply Fin.ext; simp; omega
        rw [← this]; simp [hk]
      · have : k ≠ Fin.ofNat 16 n := by intro e; rw [e] at hk; simp at hk; omega
        simp only [this, if_false]
        by_cases hl : k.val < n
        · simp [hl, show k.val < n+1 by omega]
        · simp [hl, show ¬ k.val < n+1 by omega]

/-- The first `c` columns of a sprite row `b` with its left end at `(x0, py)` have a 1 bit on the cell `(X, Y)`. -/
def rowCovers (b : Byte) (x0 py c X Y : Nat) : Bool := decide (Y % 32 = py % 32) && decide ((X + 64 - x0) % 64 < c) && spriteBit b ((X+64-x0)%64)

/-- The columns of one row toggle the cells they cover. -/
theorem drawColumns_fb (b : Byte) (x0 py : Nat) (hx : x0 < 64) (d : Drawing) (c : Nat) (hc : c ≤ 8) (X Y : Nat) (hX : X < 64) :
    (drawColumns b x0 py c d).fb.get X Y = (d.fb.get X Y ^^ rowCovers b x0 py c X Y) := by
  induction c with
  | zero => simp [drawColumns, rowCovers]
  | succ c ih =>
    rw [drawColumns, Drawing.plot]
    have ih := ih (by omega)
    by_cases hb : spriteBit b c = true
    · simp only [hb, if_true, Framebuffer.get_toggle, ih]
      by_cases h1 : X % 64 = (x0 + c) % 64
      · have e : (X + 64 - x0) % 64 = c := by omega
        by_cases h2 : Y % 32 = py % 32
        · simp [h1, h2, rowCovers, e, hb]
        · simp [h2, rowCovers]
      · have e : ¬ (X + 64 - x0) % 64 = c := by omega
        have e2 : ((X + 64 - x0) % 64 < c+1) = ((X + 64 - x0) % 64 < c) := by simp; omega
        simp [h1, rowCovers, e2]
    · have e2 : rowCovers b x0 py (c+1) X Y = rowCovers b x0 py c X Y := by
        by_cases e : (X + 64 - x0) % 64 = c
        · simp [rowCovers, e, hb]
        · have e2 : ((X + 64 - x0) % 64 < c+1) = ((X + 64 - x0) % 64 < c) := by simp; omega
          simp [rowCovers, e2]
      rw [if_neg hb, e2, ih]

/-- The columns of one row note a collision exactly when they cover a cell that is on. -/
theorem drawColumns_col (b : Byte) (x0 py : Nat) (hx : x0 < 64) (d : Drawing) (c : Nat) (hc : c ≤ 8) :
    (drawColumns b x0 py c d).col = true ↔ d.col = true ∨ ∃ X Y, X < 64 ∧ Y < 32 ∧ d.fb.get X Y = true ∧ rowCovers b x0 py c X Y = true := by
  induction c with
  | zero => simp [drawColumns, rowCovers]
  | succ c ih =>
    rw [drawColumns, Drawing.plot]
    have ih := ih (by omega)
    have mono : ∀ X Y, rowCovers b x0 py c X Y = true → rowCovers b x0 py (c+1) X Y = true := by
      intro X Y; simp [rowCovers]; intro a b' c'; refine ⟨⟨a, by omega⟩, c'⟩
    by_cases hb : spriteBit b c = true
    · simp only [hb, if_true, Bool.or_eq_true, ih]
      have hg : (drawColumns b x0 py c d).fb.get (x0+c) py = d.fb.get ((x0+c)%64) (py%32) := by
        have := drawColumns_fb b x0 py hx d c (by omega) ((x0+c)%64) (py%32) (by omega)
        have e : ((x0+c)%64 + 64 - x0) % 64 = c := by omega
        simp only [rowCovers, e, show ¬ c < c by omega] at this
        simp at this
        rw [← this]; simp [Framebuffer.get]
      rw [hg]
      constructor
      · rintro ((h|⟨X,Y,h1,h2,h3,h4⟩)|h)
        · exact .inl h
        · exact .inr ⟨X,Y,h1,h2,h3,mono _ _ h4⟩
        · refine .inr ⟨(x0+c)%64, py%32, by omega, by omega, h, ?_⟩
          have e : ((x0+c)%64 + 64 - x0) % 64 = c := by omega
          simp [rowCovers, e, hb]
      · rintro (h|⟨X,Y,h1,h2,h3,h4⟩)
        · exact .inl (.inl h)
        · by_cases e : (X + 64 - x0) % 64 = c
          · right
            have : X = (x0+c)%64 := by omega
            simp [rowCovers] at h4
            have : Y = py % 32 := by omega
            rwa [‹X = _›, ‹Y = _›] at h3
          · left; right
            refine ⟨X,Y,h1,h2,h3,?_⟩
            simp [rowCovers] at h4 ⊢
            refine ⟨⟨h4.1.1, by omega⟩, h4.2⟩
    · rw [if_neg hb, ih]
      have e2 : ∀ X Y, rowCovers b x0 py (c+1) X Y = rowCovers b x0 py c X Y := by
        intro X Y
        by_cases e : (X + 64 - x0) % 64 = c
        · simp [rowCovers, e, hb]
        · have e2 : ((X + 64 - x0) % 64 < c+1) = ((X + 64 - x0) % 64 < c) := by simp; omega
          simp [rowCovers, e2]
      simp [e2]

/-- The first `n` rows of the sprite at I with its corner at `(x0, y0)` have a 1 bit on the cell `(X, Y)`; with the sprite's own
corner and height this is `State.spriteCovers`. -/
def rowsCover (s : State) (x0 y0 n X Y : Nat) : Bool :=
  decide ((X + 64 - x0) % 64 < 8) && decide ((Y + 32 - y0) % 32 < n) && spriteBit (s.byteAt (s.i.toNat + (Y + 32 - y0) % 32)) ((X+64-x0)%64)

/-- The sprite loop of DXYN (R182): what it changes, reports, toggles, and when it notes a collision. -/
theorem drawRows_spec (x0 y0 : Nat) (hx : x0 < 64) (hy : y0 < 32) (s : State) (n : Nat) (hn : n ≤ 15) :
    (∀ p : Part, p ≠ .errors → p ≠ .fb → p.same s (drawRows x0 y0 n s).1) ∧ ReportsRange s.i.toNat n s (drawRows x0 y0 n s).1 ∧
    (∀ X Y, X < 64 → Y < 32 → (drawRows x0 y0 n s).1.fb.get X Y = (s.fb.get X Y ^^ rowsCover s x0 y0 n X Y)) ∧
    ((drawRows x0 y0 n s).2 = true ↔ ∃ X Y, X < 64 ∧ Y < 32 ∧ s.fb.get X Y = true ∧ rowsCover s x0 y0 n X Y = true) := by
  induction n with
  | zero => exact ⟨by intro p _ _; cases p <;> simp [Part.same, drawRows], by simp [drawRows, ReportsRange, Part.same], by simp [drawRows, rowsCover], by simp [drawRows, rowsCover]⟩
  | succ n ih =>
    obtain ⟨h1, h2, h3, h4⟩ := ih (by omega)
    have hi : (drawRows x0 y0 n s).1.i = s.i := h1 .i (by simp) (by simp)
    have hb : ∀ a, (drawRows x0 y0 n s).1.byteAt a = s.byteAt a := by
      intro a
      have := h1 (.mem ⟨a % 4096, by omega⟩) (by simp) (by simp)
      simpa [Part.same, State.byteAt_mod] using this
    have hd : (drawRows x0 y0 (n+1) s) = (let d := drawColumns (s.byteAt (s.i.toNat + n)) x0 (y0 + n) 8 { fb := (drawRows x0 y0 n s).1.fb, col := (drawRows x0 y0 n s).2 }; ((checkAddress (s.i.toNat + n) (drawRows x0 y0 n s).1).setFb d.fb, d.col)) := by
      simp [drawRows, memRead, State.indexPlus, hi, hb]
    have covS : ∀ X Y, X < 64 → Y < 32 → rowsCover s x0 y0 (n+1) X Y = (rowsCover s x0 y0 n X Y ^^ rowCovers (s.byteAt (s.i.toNat + n)) x0 (y0+n) 8 X Y) := by
      intro X Y hX hY
      by_cases e : (Y + 32 - y0) % 32 = n
      · have e' : Y % 32 = (y0 + n) % 32 := by omega
        simp [rowsCover, rowCovers, e, e']
      · have e' : ¬ Y % 32 = (y0 + n) % 32 := by omega
        have e2 : ((Y + 32 - y0) % 32 < n+1) = ((Y + 32 - y0) % 32 < n) := by simp; omega
        simp [rowsCover, rowCovers, e2, e']
    have disj : ∀ X Y, X < 64 → Y < 32 → rowCovers (s.byteAt (s.i.toNat + n)) x0 (y0+n) 8 X Y = true → rowsCover s x0 y0 n X Y = false := by
      intro X Y hX hY h
      simp [rowCovers] at h
      have : ¬ (Y + 32 - y0) % 32 < n := by omega
      simp [rowsCover, this]
    rw [hd]
    refine ⟨?_, ?_, ?_, ?_⟩
    · intro p hp hf
      apply Part.same_trans (h1 p hp hf)
      cases p <;> simp [Part.same, checkAddress_result_waiting,
        checkAddress_result_pcAt, checkAddress_result_op] at hp hf ⊢
    · exact reportsRange_succ h2 rfl rfl
    · intro X Y hX hY
      simp only [State.setFb_fb]
      rw [drawColumns_fb _ _ _ hx _ _ (le_refl 8) X Y hX, h3 X Y hX hY, covS X Y hX hY]
      simp
    · simp only
      rw [drawColumns_col _ _ _ hx _ _ (le_refl 8)]
      simp only [h4]
      constructor
      · rintro (⟨X,Y,a,b,c,d⟩|⟨X,Y,a,b,c,d⟩)
        · refine ⟨X,Y,a,b,c,?_⟩
          rw [covS X Y a b]
          cases hh : rowCovers (s.byteAt (s.i.toNat + n)) x0 (y0+n) 8 X Y
          · simp [d]
          · have := disj X Y a b hh; rw [d] at this; cases this
        · have hf := disj X Y a b d
          rw [h3 X Y a b, hf] at c
          exact ⟨X,Y,a,b,by simpa using c, by rw [covS X Y a b, hf, d]; rfl⟩
      · rintro ⟨X,Y,a,b,c,d⟩
        rw [covS X Y a b] at d
        cases hh : rowCovers (s.byteAt (s.i.toNat + n)) x0 (y0+n) 8 X Y
        · left; exact ⟨X,Y,a,b,c,by simpa [hh] using d⟩
        · right
          have hf := disj X Y a b hh
          refine ⟨X,Y,a,b,?_,hh⟩
          rw [h3 X Y a b, hf]; simpa using c

/-- `rowsCover` with a sprite's own corner and height. -/
theorem spriteCovers_eq (s : State) (x y : Reg) (n : Nibble) (px : Fin 64) (py : Fin 32) :
    s.spriteCovers x y n px py = rowsCover s (s.spriteX x) (s.spriteY y) n.toNat px.val py.val := rfl

/-- LOAD's copy writes memory only (R244). -/
theorem loadBytes_eq (bs : List Byte) (s : State) (a : Nat) : loadBytes a bs s = { s with mem := (loadBytes a bs s).mem } := by
  induction bs generalizing s a with
  | nil => rfl
  | cons b bs ih => rw [loadBytes, ih]; rfl

/-- The bytes after LOAD's copy (R244). -/
theorem byteAt_loadBytes (bs : List Byte) (s : State) (a b : Nat) (hl : a + bs.length ≤ 4096) (hb : b < 4096) :
    (loadBytes a bs s).byteAt b = if h : a ≤ b ∧ b < a + bs.length then bs[b - a] else s.byteAt b := by
  induction bs generalizing s a with
  | nil => simp [loadBytes]
  | cons c bs ih =>
    rw [loadBytes]
    simp at hl
    rw [ih (s.setByte a c) (a+1) (by omega), State.byteAt_setByte]
    by_cases h1 : b = a
    · subst h1; simp
    · have : ¬ b % 4096 = a % 4096 := by omega
      simp only [this, if_false]
      by_cases h2 : a + 1 ≤ b ∧ b < a + 1 + bs.length
      · have h3 : a ≤ b ∧ b < a + (c :: bs).length := by simp; omega
        rw [dif_pos h2, dif_pos h3]
        have : b - a = (b - (a+1)) + 1 := by omega
        simp [this]
      · have h3 : ¬ (a ≤ b ∧ b < a + (c :: bs).length) := by simp; omega
        rw [dif_neg h2, dif_neg h3]

/-- LOAD's copy keeps the canonical form of memory. -/
theorem wf_loadBytes (bs : List Byte) (s : State) (a : Nat) (hw : Memory.wf s.params s.mem = true) :
    Memory.wf s.params (loadBytes a bs s).mem = true := by
  induction bs generalizing s a with
  | nil => exact hw
  | cons b bs ih => rw [loadBytes]; exact ih (s.setByte a b) _ (Memory.wf_write s.mem (mask a) b (mask_lt a) hw)

/-! ### Transactions and the start of a cycle -/

/-- A transaction that needs INIT answers next exactly after INIT (R240). -/
theorem whenInited_eq_next {s t : State} {r : Result} : whenInited s r = .next t ↔ s.inited = true ∧ r = .next t := by
  unfold whenInited; split <;> simp_all

/-- One timer's decrement as a number (R196). -/
theorem decrementTimer_toNat (b : Byte) : (decrementTimer b).toNat = b.toNat - 1 := by
  unfold decrementTimer; split
  · have := b.isLt; rw [BitVec.toNat_sub]; simp; omega
  · omega

/-- The least pressed key, if any is (R193). -/
theorem leastKey_cases (s : State) :
    (s.leastKey = none ∧ ∀ k, s.keyDown k = false) ∨ ∃ k, s.leastKey = some k ∧ s.keyDown k = true := by
  cases h : s.leastKey with
  | none => left; refine ⟨rfl, ?_⟩; unfold State.leastKey at h; simpa using h
  | some k => right; refine ⟨k, rfl, ?_⟩; unfold State.leastKey at h; simpa using List.find?_some h

/-- The state an instruction executes in, from the start of its cycle (R76). -/
theorem fetched_eq (r : Option Byte) (s : State) :
    fetched r s =
      (checkAddress (s.pc.toNat + 1) (checkAddress s.pc.toNat (beginCycle r s))).recordOp s.opcodeAtPc := by
  simp [fetched, fetch_eq]

/-- What the start of a cycle changes (R76). -/
theorem fetched_onlyChanges (r : Option Byte) (s : State) :
    OnlyChanges s (fetched r s) [.randomIn, .record, .waiting, .errors] := by
  intro p hp; rw [fetched_eq]; cases p <;> simp [Part.same] at hp ⊢

/-- What a cycle answers next from: an instruction executed in `fetched`, or UNKNOWN. -/
theorem cycle_next_cases {r : Option Byte} {s t : State} (h : cycle r s = .next t) :
    ∃ u, t = endCycle u ∧
      ((∃ i, decode s.opcodeAtPc = .instr i ∧ exec i (fetched r s) = .next u) ∨
        ((∃ op, decode s.opcodeAtPc = .unknown op) ∧ u = (raise .unknownOpcode (fetched r s)).advance)) := by
  rw [cycle_eq, mapNext_eq_next] at h
  obtain ⟨u, h, rfl⟩ := h
  refine ⟨u, rfl, ?_⟩
  cases hd : decode s.opcodeAtPc with
  | instr i => rw [hd] at h; exact .inl ⟨i, rfl, h⟩
  | unknown op => rw [hd] at h; cases h; exact .inr ⟨⟨op, rfl⟩, rfl⟩

end Sys2Proof.Machine
end

