-- ==== Sys2Proof/Laws/PerInstr.lean ====
section
/-! SUPPORT. The family TableRow: every instruction's word has the bits its row of spec/opcode_table.json fixes. -/

namespace Sys2Proof.Laws.TableRow

/-- The word of `i` matches its table row, `word & mask = match`. -/
def Statement (i : Instr) : Prop := encode i &&& (tableRow i).2 = (tableRow i).1

theorem layoutNnn_and (f : Nibble) (nnn : Imm12) : layoutNnn f nnn &&& 0xF000 = layoutNnn f 0 := by
  have h : layoutNnn f nnn &&& (15#4 ++ 0#12 : BitVec 16) = (f &&& 15#4) ++ (nnn &&& 0#12) := BitVec.and_append
  rw [BitVec.and_zero, BitVec.and_comm, show (15#4 : BitVec 4) = BitVec.allOnes 4 from rfl, BitVec.and_comm,
    BitVec.and_allOnes] at h
  exact h

theorem layoutXnn_and (f : Nibble) (x : Reg) (nn m : Byte) :
    layoutXnn f x nn &&& (15#4 ++ 0#4 ++ m : BitVec 16) = layoutXnn f 0 (nn &&& m) := by
  have h : layoutXnn f x nn &&& (15#4 ++ 0#4 ++ m : BitVec 16) =
      ((f ++ BitVec.ofNat 4 x.val) &&& (15#4 ++ 0#4)) ++ (nn &&& m) := BitVec.and_append
  rw [BitVec.and_append, BitVec.and_zero, show (15#4 : BitVec 4) = BitVec.allOnes 4 from rfl, BitVec.and_allOnes] at h
  exact h

theorem layoutXyn_and (f : Nibble) (x y : Reg) (n : Nibble) :
    layoutXyn f x y n &&& 0xF00F = layoutXyn f 0 0 n := by
  have h : layoutXyn f x y n &&& (15#4 ++ 0#4 ++ 0#4 ++ 15#4 : BitVec 16) =
      ((f ++ BitVec.ofNat 4 x.val ++ BitVec.ofNat 4 y.val) &&& (15#4 ++ 0#4 ++ 0#4)) ++ (n &&& 15#4) := BitVec.and_append
  rw [BitVec.and_append, BitVec.and_append, BitVec.and_zero, BitVec.and_zero,
    show (15#4 : BitVec 4) = BitVec.allOnes 4 from rfl, BitVec.and_allOnes, BitVec.and_allOnes] at h
  exact h

theorem cls : Statement (.cls) := rfl
theorem ret : Statement (.ret) := rfl
theorem sys (nnn : Imm12) : Statement (.sys nnn) := (layoutNnn_and 0x0 nnn).trans rfl
theorem jp (nnn : Imm12) : Statement (.jp nnn) := (layoutNnn_and 0x1 nnn).trans rfl
theorem call (nnn : Imm12) : Statement (.call nnn) := (layoutNnn_and 0x2 nnn).trans rfl
theorem seByte (x : Reg) (nn : Byte) : Statement (.seByte x nn) :=
  (layoutXnn_and 0x3 x nn 0#8).trans (by rw [BitVec.and_zero]; rfl)
theorem sneByte (x : Reg) (nn : Byte) : Statement (.sneByte x nn) :=
  (layoutXnn_and 0x4 x nn 0#8).trans (by rw [BitVec.and_zero]; rfl)
theorem seReg (x y : Reg) : Statement (.seReg x y) := (layoutXyn_and 0x5 x y 0x0).trans rfl
theorem ldByte (x : Reg) (nn : Byte) : Statement (.ldByte x nn) :=
  (layoutXnn_and 0x6 x nn 0#8).trans (by rw [BitVec.and_zero]; rfl)
theorem addByte (x : Reg) (nn : Byte) : Statement (.addByte x nn) :=
  (layoutXnn_and 0x7 x nn 0#8).trans (by rw [BitVec.and_zero]; rfl)
theorem ldReg (x y : Reg) : Statement (.ldReg x y) := (layoutXyn_and 0x8 x y 0x0).trans rfl
theorem or (x y : Reg) : Statement (.or x y) := (layoutXyn_and 0x8 x y 0x1).trans rfl
theorem and (x y : Reg) : Statement (.and x y) := (layoutXyn_and 0x8 x y 0x2).trans rfl
theorem xor (x y : Reg) : Statement (.xor x y) := (layoutXyn_and 0x8 x y 0x3).trans rfl
theorem addReg (x y : Reg) : Statement (.addReg x y) := (layoutXyn_and 0x8 x y 0x4).trans rfl
theorem sub (x y : Reg) : Statement (.sub x y) := (layoutXyn_and 0x8 x y 0x5).trans rfl
theorem shr (x y : Reg) : Statement (.shr x y) := (layoutXyn_and 0x8 x y 0x6).trans rfl
theorem subn (x y : Reg) : Statement (.subn x y) := (layoutXyn_and 0x8 x y 0x7).trans rfl
theorem shl (x y : Reg) : Statement (.shl x y) := (layoutXyn_and 0x8 x y 0xE).trans rfl
theorem sneReg (x y : Reg) : Statement (.sneReg x y) := (layoutXyn_and 0x9 x y 0x0).trans rfl
theorem ldI (nnn : Imm12) : Statement (.ldI nnn) := (layoutNnn_and 0xA nnn).trans rfl
theorem jpV0 (nnn : Imm12) : Statement (.jpV0 nnn) := (layoutNnn_and 0xB nnn).trans rfl
theorem rnd (x : Reg) (nn : Byte) : Statement (.rnd x nn) :=
  (layoutXnn_and 0xC x nn 0#8).trans (by rw [BitVec.and_zero]; rfl)
theorem drw (x y : Reg) (n : Nibble) : Statement (.drw x y n) := by
  have h : layoutXyn 0xD x y n &&& (15#4 ++ 0#4 ++ 0#4 ++ 0#4 : BitVec 16) =
      ((0xD#4 ++ BitVec.ofNat 4 x.val ++ BitVec.ofNat 4 y.val) &&& (15#4 ++ 0#4 ++ 0#4)) ++ (n &&& 0#4) := BitVec.and_append
  rw [BitVec.and_append, BitVec.and_append, BitVec.and_zero, BitVec.and_zero, BitVec.and_zero] at h
  exact h
theorem skp (x : Reg) : Statement (.skp x) := (layoutXnn_and 0xE x 0x9E 0xFF).trans rfl
theorem sknp (x : Reg) : Statement (.sknp x) := (layoutXnn_and 0xE x 0xA1 0xFF).trans rfl
theorem ldVxDt (x : Reg) : Statement (.ldVxDt x) := (layoutXnn_and 0xF x 0x07 0xFF).trans rfl
theorem ldVxK (x : Reg) : Statement (.ldVxK x) := (layoutXnn_and 0xF x 0x0A 0xFF).trans rfl
theorem ldDtVx (x : Reg) : Statement (.ldDtVx x) := (layoutXnn_and 0xF x 0x15 0xFF).trans rfl
theorem ldStVx (x : Reg) : Statement (.ldStVx x) := (layoutXnn_and 0xF x 0x18 0xFF).trans rfl
theorem addI (x : Reg) : Statement (.addI x) := (layoutXnn_and 0xF x 0x1E 0xFF).trans rfl
theorem ldF (x : Reg) : Statement (.ldF x) := (layoutXnn_and 0xF x 0x29 0xFF).trans rfl
theorem ldB (x : Reg) : Statement (.ldB x) := (layoutXnn_and 0xF x 0x33 0xFF).trans rfl
theorem storeRegs (x : Reg) : Statement (.storeRegs x) := (layoutXnn_and 0xF x 0x55 0xFF).trans rfl
theorem loadRegs (x : Reg) : Statement (.loadRegs x) := (layoutXnn_and 0xF x 0x65 0xFF).trans rfl

end Sys2Proof.Laws.TableRow
end

