-- ==== Sys2Proof/Tests/Slice0.lean ====
section
/-! SUPPORT. Tests: the well-formedness smoke, the decoding of words written out from spec/opcode_table.json, one step on small
states with the expected results of spec/95_test_vectors.md, and a witness for the hypotheses of each statement. -/

namespace Sys2Proof.Tests

open Sys2Proof.Machine

/-! ### Well-formedness -/

/-- R74 rows 1 to 3: the one check, and both words it refuses. -/
theorem test_wellFormed_refuses_sys_of_cls_and_ret :
    (Instr.sys 0x0E0).wellFormed = false ∧ (Instr.sys 0x0EE).wellFormed = false ∧
    (Instr.sys 0x0E1).wellFormed = true ∧ (Instr.sys 0xFFF).wellFormed = true := by decide

/-! ### Decoding: every constructor, its word bit by bit from spec/opcode_table.json -/

theorem test_decode_family_0 :
    decode 0b0000000011100000 = .instr .cls ∧
    decode 0b0000000011101110 = .instr .ret ∧
    decode 0b0000101111001101 = .instr (.sys 0xBCD) ∧
    decode 0b0000000000000000 = .instr (.sys 0x000) := by decide

theorem test_decode_jumps :
    decode 0b0001101111001101 = .instr (.jp 0xBCD) ∧
    decode 0b0010101111001101 = .instr (.call 0xBCD) ∧
    decode 0b1011101111001101 = .instr (.jpV0 0xBCD) := by decide

theorem test_decode_skips :
    decode 0b0011101111001101 = .instr (.seByte 0xB 0xCD) ∧
    decode 0b0100101111001101 = .instr (.sneByte 0xB 0xCD) ∧
    decode 0b0101101111000000 = .instr (.seReg 0xB 0xC) ∧
    decode 0b1001101111000000 = .instr (.sneReg 0xB 0xC) := by decide

theorem test_decode_immediates :
    decode 0b0110101111001101 = .instr (.ldByte 0xB 0xCD) ∧
    decode 0b0111101111001101 = .instr (.addByte 0xB 0xCD) ∧
    decode 0b1100101111001101 = .instr (.rnd 0xB 0xCD) ∧
    decode 0b1010101111001101 = .instr (.ldI 0xBCD) := by decide

theorem test_decode_family_8 :
    decode 0b1000101111000000 = .instr (.ldReg 0xB 0xC) ∧
    decode 0b1000101111000001 = .instr (.or 0xB 0xC) ∧
    decode 0b1000101111000010 = .instr (.and 0xB 0xC) ∧
    decode 0b1000101111000011 = .instr (.xor 0xB 0xC) ∧
    decode 0b1000101111000100 = .instr (.addReg 0xB 0xC) ∧
    decode 0b1000101111000101 = .instr (.sub 0xB 0xC) ∧
    decode 0b1000101111000110 = .instr (.shr 0xB 0xC) ∧
    decode 0b1000101111000111 = .instr (.subn 0xB 0xC) ∧
    decode 0b1000101111001110 = .instr (.shl 0xB 0xC) := by decide

theorem test_decode_draw_and_keys :
    decode 0b1101101111001101 = .instr (.drw 0xB 0xC 0xD) ∧
    decode 0b1110101110011110 = .instr (.skp 0xB) ∧
    decode 0b1110101110100001 = .instr (.sknp 0xB) := by decide

theorem test_decode_family_F :
    decode 0b1111101100000111 = .instr (.ldVxDt 0xB) ∧
    decode 0b1111101100001010 = .instr (.ldVxK 0xB) ∧
    decode 0b1111101100010101 = .instr (.ldDtVx 0xB) ∧
    decode 0b1111101100011000 = .instr (.ldStVx 0xB) ∧
    decode 0b1111101100011110 = .instr (.addI 0xB) ∧
    decode 0b1111101100101001 = .instr (.ldF 0xB) ∧
    decode 0b1111101100110011 = .instr (.ldB 0xB) ∧
    decode 0b1111101101010101 = .instr (.storeRegs 0xB) ∧
    decode 0b1111101101100101 = .instr (.loadRegs 0xB) := by decide

/-- R74, last row, at the ends of its ranges. -/
theorem test_decode_unknown :
    decode 0x5001 = .unknown 0x5001 ∧ decode 0x9FFF = .unknown 0x9FFF ∧ decode 0x8008 = .unknown 0x8008 ∧
    decode 0x8FFD = .unknown 0x8FFD ∧ decode 0x800F = .unknown 0x800F ∧ decode 0xE09F = .unknown 0xE09F ∧
    decode 0xF066 = .unknown 0xF066 ∧ decode 0xFFFF = .unknown 0xFFFF := by decide

/-- R72: the table's word is laid out high byte first. -/
theorem test_decodeTableWord :
    decodeTableWord 16 0x6A9C = some (.ldByte 0xA 0x9C) ∧ decodeTableWord 16 0x5121 = none := by decide

/-! ### One step (spec/95_test_vectors.md) -/

/-- `s` about to run the opcode `w` at 0x300, with the random byte `r` of the cycle. -/
def ready (s : State) (w : Nat) (r : Option Byte := none) : State :=
  { ({ s with pc := 0x300 }).withFetchWord 16 w with pending := [.cycle r] }

/-- What `f` reads after one step, if the step answers a next state. -/
def reading {α : Type} (f : State → α) (s : State) : Option α :=
  match step s with
  | .next t => some (f t)
  | .fault _ => none
  | .refused _ => none

/-- The reset state with V0 and V1. -/
def regs (a b : Byte) : State := (State.reset.setV 0 a).setV 1 b

/-- The reset state with the flags, as a function of the parameters. -/
def params (f : Params → Params) (s : State) : State := { s with params := f s.params }

/-- CF1. -/
theorem test_sys : reading (fun t => (t.pc, t.result.err)) (ready State.reset 0x0123) = some (0x302, 0) := by decide

/-- CF2. -/
theorem test_ret :
    reading (fun t => (t.sp, t.pc)) (ready { State.reset with sp := 1, stack := State.reset.stack.set 0 0x206 } 0x00EE) =
      some (0, 0x206) := by decide

/-- CF3. -/
theorem test_ret_empty :
    reading (fun t => (t.sp, t.pc, t.result.err, t.errLog)) (ready State.reset 0x00EE) = some (0, 0x302, 4, 4) := by decide

/-- CF5. -/
theorem test_jp : reading (fun t => t.pc) (ready State.reset 0x1ABC) = some 0xABC := by decide

/-- CF6. -/
theorem test_call :
    reading (fun t => (t.sp, t.stack[0], t.pc)) (ready State.reset 0x2456) = some (1, 0x302, 0x456) := by decide

/-- CF7. -/
theorem test_call_full :
    reading (fun t => (t.sp, t.stack[15], t.pc, t.result.err))
      (ready { State.reset with sp := 16, stack := Vector.replicate 16 0x202 } 0x2456) = some (16, 0x202, 0x302, 2) := by
  decide

/-- CF10. -/
theorem test_jpV0 : reading (fun t => t.pc) (ready (regs 0xFF 0) 0xBFFF) = some 0x10FE := by decide

/-- CF11. -/
theorem test_jpV0_of_jumpVx :
    reading (fun t => t.pc)
      (ready (params (fun p => { p with jumpVx := true }) ((regs 0x04 0).setV 3 0x10)) 0xB300) = some 0x310 := by decide

/-- CF12, CF13. -/
theorem test_seByte :
    reading (fun t => t.pc) (ready (State.reset.setV 3 0x12) 0x3312) = some 0x304 ∧
    reading (fun t => t.pc) (ready (State.reset.setV 3 0x12) 0x3313) = some 0x302 := by decide

/-- CF14, CF15. -/
theorem test_sneByte :
    reading (fun t => t.pc) (ready (State.reset.setV 3 0x12) 0x4313) = some 0x304 ∧
    reading (fun t => t.pc) (ready (State.reset.setV 3 0x12) 0x4312) = some 0x302 := by decide

/-- CF16, CF17, with V0 and V1. -/
theorem test_seReg :
    reading (fun t => t.pc) (ready (regs 7 7) 0x5010) = some 0x304 ∧
    reading (fun t => t.pc) (ready (regs 7 8) 0x5010) = some 0x302 := by decide

/-- CF19, CF20, with V0 and V1. -/
theorem test_sneReg :
    reading (fun t => t.pc) (ready (regs 7 8) 0x9010) = some 0x304 ∧
    reading (fun t => t.pc) (ready (regs 7 7) 0x9010) = some 0x302 := by decide

/-- AL1, AL2. -/
theorem test_ldByte :
    reading (fun t => (t.getV 0xA, t.pc)) (ready State.reset 0x6A9C) = some (0x9C, 0x302) ∧
    reading (fun t => t.getV 0xF) (ready (State.reset.setV 0xF 1) 0x6F00) = some 0 := by decide

/-- AL4. -/
theorem test_addByte :
    reading (fun t => (t.getV 0, t.getV 0xF)) (ready ((regs 0xFF 0).setV 0xF 0x55) 0x7001) = some (0x00, 0x55) := by decide

/-- AL5, with V0 and V1. -/
theorem test_ldReg : reading (fun t => (t.getV 0, t.getV 1)) (ready (regs 0 0x33) 0x8010) = some (0x33, 0x33) := by decide

/-- AL6, with V0 and V1. -/
theorem test_or :
    reading (fun t => (t.getV 0, t.getV 0xF)) (ready ((regs 0x0F 0xF0).setV 0xF 1) 0x8011) = some (0xFF, 1) := by decide

/-- AL7, with V0 and V1. -/
theorem test_or_of_logicVfReset :
    reading (fun t => (t.getV 0, t.getV 0xF))
      (ready (params (fun p => { p with logicVfReset := true }) ((regs 0x0F 0xF0).setV 0xF 1)) 0x8011) = some (0xFF, 0) := by
  decide

/-- AL8, with V0 and V1. -/
theorem test_and : reading (fun t => t.getV 0) (ready (regs 0x3C 0x0F) 0x8012) = some 0x0C := by decide

/-- AL9, AL10, with V0 and V1. -/
theorem test_xor :
    reading (fun t => t.getV 0) (ready (regs 0x3C 0x0F) 0x8013) = some 0x33 ∧
    reading (fun t => t.getV 0) (ready (regs 0x3C 0x0F) 0x8003) = some 0x00 := by decide

/-- AL14. -/
theorem test_addReg_into_flag :
    reading (fun t => t.getV 0xF) (ready ((regs 0 0x90).setV 0xF 0x80) 0x8F14) = some 1 := by decide

/-- AL15. -/
theorem test_addReg_from_flag :
    reading (fun t => (t.getV 0, t.getV 0xF)) (ready ((regs 0x10 0).setV 0xF 0xF0) 0x80F4) = some (0x00, 1) := by decide

/-- AL16, AL17. -/
theorem test_sub :
    reading (fun t => (t.getV 0, t.getV 0xF)) (ready (regs 0 1) 0x8015) = some (0xFF, 0) ∧
    reading (fun t => (t.getV 0, t.getV 0xF)) (ready (regs 5 5) 0x8015) = some (0, 1) := by decide

/-- AL22. -/
theorem test_shr : reading (fun t => (t.getV 0, t.getV 0xF)) (ready (regs 0xFF 0) 0x8006) = some (0x7F, 1) := by decide

/-- AL24. -/
theorem test_shr_of_shiftSrcVy :
    reading (fun t => (t.getV 0, t.getV 1, t.getV 0xF))
      (ready (params (fun p => { p with shiftSrcVy := true }) (regs 2 3)) 0x8016) = some (1, 3, 1) := by decide

/-- AL19, AL20. -/
theorem test_subn :
    reading (fun t => (t.getV 0, t.getV 0xF)) (ready (regs 5 3) 0x8017) = some (0xFE, 0) ∧
    reading (fun t => (t.getV 0, t.getV 0xF)) (ready (regs 3 5) 0x8017) = some (2, 1) := by decide

/-- AL26. -/
theorem test_shl : reading (fun t => (t.getV 0, t.getV 0xF)) (ready (regs 0xFF 0) 0x800E) = some (0xFE, 1) := by decide

/-- AL28. -/
theorem test_shl_of_shiftSrcVy :
    reading (fun t => (t.getV 0, t.getV 0xF))
      (ready (params (fun p => { p with shiftSrcVy := true }) (regs 0x01 0x81)) 0x801E) = some (0x02, 1) := by decide

/-- AL30, AL32: the host's random byte. -/
theorem test_rnd :
    reading (fun t => (t.getV 3, t.draws)) (ready State.reset 0xC30F (some 0xA5)) = some (0x05, 0) ∧
    reading (fun t => t.getV 3) (ready State.reset 0xC3FF (some 0x5A)) = some 0x5A := by decide

/-- IM1. -/
theorem test_ldI : reading (fun t => t.i) (ready State.reset 0xA300) = some 0x300 := by decide

/-- IM4. -/
theorem test_addI :
    reading (fun t => (t.i, t.getV 0xF)) (ready ((State.reset.setI 0xFFFF).setV 2 1) 0xF21E) = some (0, 1) := by decide

/-- IM5. -/
theorem test_addI_without_flag :
    reading (fun t => (t.i, t.getV 0xF))
      (ready (params (fun p => { p with fx1eVf := false }) ((State.reset.setI 0xFFF).setV 2 1)) 0xF21E) =
        some (0x1000, 0) := by decide

/-- IM8. -/
theorem test_ldF : reading (fun t => t.i) (ready (State.reset.setV 2 0x1A) 0xF229) = some 0x82 := by decide

/-- IM13. -/
theorem test_ldB :
    reading (fun t => (t.byteAt 0xFFE, t.byteAt 0xFFF, t.byteAt 0x000, t.result.err, t.result.oobAddr))
      (ready ((State.reset.setI 0xFFE).setV 0xA 0x7B) 0xFA33) = some (1, 2, 3, 8, 0x1000) := by decide

/-- IM17. -/
theorem test_storeRegs :
    reading (fun t => (t.byteAt 0xFFF, t.byteAt 0x000, t.i, t.result.oobAddr)) (ready ((regs 1 2).setI 0xFFF) 0xF155) =
      some (1, 2, 0xFFF, 0x1000) := by decide

/-- IM15, with two registers. -/
theorem test_storeRegs_of_ldstIncI :
    reading (fun t => (t.byteAt 0x400, t.byteAt 0x401, t.i))
      (ready (params (fun p => { p with ldstIncI := true }) ((regs 1 2).setI 0x400)) 0xF155) = some (1, 2, 0x402) := by
  decide

/-- IM20. -/
theorem test_loadRegs :
    reading (fun t => t.v.toList) (ready (State.reset.setI 0x50) 0xFF65) =
      some [0xF0, 0x90, 0x90, 0x90, 0xF0, 0x20, 0x60, 0x20, 0x20, 0x70, 0xF0, 0x10, 0xF0, 0x80, 0xF0, 0xF0] := by decide

/-- IM19, from the font. -/
theorem test_loadRegs_of_ldstIncI :
    reading (fun t => (t.getV 0, t.getV 1, t.getV 2, t.i))
      (ready (params (fun p => { p with ldstIncI := true }) (State.reset.setI 0x5E)) 0xF165) =
        some (0xF0, 0xF0, 0, 0x60) := by decide

/-- DS1. -/
theorem test_cls :
    reading (fun t => (t.fb.get 0 0, t.fb.get 63 31, t.renderReq))
      (ready (State.reset.setFb ((State.reset.fb.toggle 0 0).toggle 63 31)) 0x00E0) = some (false, false, true) := by decide

/-- DS9: the second row is read at the masked address 0. -/
theorem test_drw :
    reading (fun t => (t.fb.get 0 0, t.fb.get 1 1, t.fb.get 1 0, t.getV 0xF, t.renderReq, t.result.oobAddr))
      (ready (((State.reset.setI 0xFFF).setByte 0xFFF 0x80).setByte 0 0x40) 0xD012) =
        some (true, true, false, 0, true, 0x1000) := by decide

/-- DS10, at (70, 40) of DS7: it wraps to (6, 8) and collides there. -/
theorem test_drw_wraps_and_collides :
    reading (fun t => (t.fb.get 6 8, t.fb.get 7 8, t.getV 0xF))
      (ready ((((regs 0x46 0x28).setI 0x400).setByte 0x400 0xC0).setFb (State.reset.fb.toggle 6 8)) 0xD011) =
        some (false, true, 1) := by decide

/-- TK2, TK3. -/
theorem test_skp :
    reading (fun t => t.pc) (ready (State.reset.setV 5 0x0A) 0xE59E) = some 0x302 ∧
    reading (fun t => t.pc) (ready (keySet 0xA true (State.reset.setV 5 0x1A)) 0xE59E) = some 0x304 := by decide

/-- TK4, TK5. -/
theorem test_sknp :
    reading (fun t => t.pc) (ready (State.reset.setV 5 0x0A) 0xE5A1) = some 0x304 ∧
    reading (fun t => t.pc) (ready (keySet 0xA true (State.reset.setV 5 0x0A)) 0xE5A1) = some 0x302 := by decide

/-- TK7, TK8. -/
theorem test_ldVxDt :
    reading (fun t => t.getV 3) (ready ((State.reset.setDt 60).setSt 5) 0xF307) = some 0x3C := by decide

/-- TK9. -/
theorem test_ldVxK :
    reading (fun t => (t.getV 2, t.pc)) (ready (keySet 3 true (keySet 7 true State.reset)) 0xF20A) = some (3, 0x302) := by
  decide

/-- TK10. -/
theorem test_ldVxK_holds :
    reading (fun t => (t.pc, t.result.waiting, t.result.err)) (ready State.reset 0xF20A) = some (0x300, true, 0) := by decide

/-- TK12. -/
theorem test_ldDtVx : reading (fun t => (t.dt, t.st)) (ready (State.reset.setV 3 0x3C) 0xF315) = some (60, 0) := by decide

/-- TK13. -/
theorem test_ldStVx :
    reading (fun t => (t.dt, t.st, t.beepReq)) (ready (State.reset.setV 3 2) 0xF318) = some (0, 2, false) := by decide

/-- CF18, FD5. -/
theorem test_unknown :
    reading (fun t => (t.pc, t.result.err, t.errLog)) (ready (regs 7 7) 0x5011) = some (0x302, 1, 1) ∧
    reading (fun t => (t.pc, t.result.op)) (ready State.reset 0xFFFF) = some (0x302, 0xFFFF) := by decide

/-- FD1: the second byte of the opcode is at the masked address 0. -/
theorem test_fetch_wraps :
    reading (fun t => (t.getV 0, t.pc, t.result.err, t.result.oobAddr))
      ({ State.reset with pc := 0xFFF }.withFetchWord 16 0x6012) = some (0x12, 0x1000 + 1, 8, 0x1000) := by decide

/-- CF22: a skip at 0xFFFE wraps, and the first address reported is the fetch's. -/
theorem test_skip_wraps :
    reading (fun t => (t.pc, t.result.oobAddr))
      ({ regs 1 0 with pc := 0xFFFE }.withFetchWord 16 0x3001) = some (2, 0xFFFE) := by decide

/-! ### The other transactions -/

/-- TK14, TK15. -/
theorem test_tick :
    reading (fun t => (t.dt, t.st, t.beepReq, t.pc)) { (State.reset.setDt 5).setSt 3 with pending := [.tick] } =
      some (4, 2, true, 0x200) ∧
    reading (fun t => (t.dt, t.st, t.beepReq)) { State.reset.setSt 1 with pending := [.tick], beepReq := true } =
      some (0, 0, false) := by decide

/-- R244: the image and pc. -/
theorem test_load :
    reading (fun t => (t.byteAt 0x200, t.byteAt 0x201, t.byteAt 0x202, t.pc, t.loadResult))
      { State.reset with pending := [.load [0x12, 0x34]], pc := 0x300 } = some (0x12, 0x34, 0, 0x200, some .ok) := by decide

/-- E10. -/
theorem test_init :
    reading (fun t => (t.getV 0, t.pc, t.byteAt 0x050, t.byteAt 0x051, t.byteAt 0x400, t.errLog))
      { (regs 7 7).setByte 0x400 9 with pending := [.init], inited := false, errLog := 15, pc := 0x300 } =
      some (0, 0x200, 0xF0, 0x90, 0, 0) := by decide

/-- R222, R225. -/
theorem test_keySet_and_renderAck :
    reading (fun t => (t.keyDown 0xF, t.keyDown 0xE)) { State.reset with pending := [.keySet 0xF true] } = some (true, false) ∧
    reading (fun t => t.renderReq) { State.reset with pending := [.renderAck], renderReq := true } = some false := by decide

/-- R240: a transaction before INIT. -/
theorem test_before_init : step { State.reset with inited := false } = .refused .beforeInit := by rfl

/-! ### A witness for the hypotheses of each statement that has any, at the ends of its ranges -/

/-- The transaction `x` on `s` answers a next state in which `f` has another value. -/
def changes {α : Type} [DecidableEq α] (f : State → α) (x : Transaction) (s : State) : Bool :=
  match transact x s with
  | .next t => decide (f t ≠ f s)
  | .fault _ => false
  | .refused _ => false

/-- A result is a next state. -/
def answers (r : Result) : Bool :=
  match r with
  | .next _ => true
  | .fault _ => false
  | .refused _ => false

/-- `s` with the opcode `w` at its pc and nothing pending. -/
def placed (s : State) (w : Nat) : State := { s.withFetchWord 16 w with pending := [] }

theorem witness_DecodeOfEncodeIsTheInstruction :
    (Instr.sys 0xFFF).wellFormed = true ∧ (Instr.drw 15 15 15).wellFormed = true := by decide

theorem witness_EncodeOfDecodedIsTheWord :
    decode 0xFF65 = .instr (.loadRegs 15) ∧ decode 0x0000 = .instr (.sys 0) := by decide

theorem witness_StepRunsTheFetchedInstruction :
    (ready State.reset 0x6A9C (some 1)).inited = true ∧
    (nextTransaction (ready State.reset 0x6A9C (some 1))).1 = .cycle (some 1) ∧
    decode (ready State.reset 0x6A9C (some 1)).opcodeAtPc = .instr (.ldByte 0xA 0x9C) ∧
    (nextTransaction State.reset).1 = .cycle none ∧ decode State.reset.opcodeAtPc = .instr (.sys 0) ∧
    decode (ready State.reset 0x5121).opcodeAtPc = .unknown 0x5121 := by decide

theorem witness_UnknownOpcodeIsReportedAndSteppedOver : decode 0x5001 = .unknown 0x5001 := by decide

theorem witness_Unused8XYnWritesNoRegister :
    (0xF : Nibble).toNat ∈ [0x8, 0x9, 0xA, 0xB, 0xC, 0xD, 0xF] ∧
    (ready State.reset 0x8FFF).opcodeAtPc = BitVec.ofNat 16 (0x8000 + 0x100 * 15 + 0x10 * 15 + 15) ∧
    (ready State.reset 0x8008).opcodeAtPc = BitVec.ofNat 16 (0x8000 + 0x100 * 0 + 0x10 * 0 + 8) := by decide

theorem witness_FetchIsBigEndianMaskedAndReported : ({ State.reset with pc := 0xFFF } : State).pc = 0xFFF := by rfl

theorem witness_CycleRecordsAddressOpcodeAndWaiting :
    answers (cycle none (placed State.reset 0xF20A)) = true ∧
    decode (placed State.reset 0xF20A).opcodeAtPc = .instr (.ldVxK 2) ∧
    (∀ k : Fin 16, (placed State.reset 0xF20A).keyDown k = false) := by decide

theorem witness_CycleErrorsHaveExactlyTheirCauses :
    answers (cycle none (placed State.reset 0x5121)) = true ∧
    answers (cycle none (placed { State.reset with sp := 16 } 0x2456)) = true ∧
    answers (cycle none (placed State.reset 0x00EE)) = true ∧ State.reset.sp = 0 ∧
    answers (cycle none { State.reset with pc := 0xFFF }) = true ∧
    answers (cycle none (placed (State.reset.setI 0xFFE) 0xFA33)) = true ∧ (Instr.ldB 0xA).accessLength = 3 := by decide

theorem witness_ErrLogAccumulatesAndOnlyInitClearsIt :
    changes (fun t => t.errLog) (.cycle none) (placed State.reset 0x00EE) = true ∧
    changes (fun t => t.errLog) .init { State.reset with errLog := 15 } = true ∧
    answers (transact .tick State.reset) = true := by decide

theorem witness_EveryStepKeepsTheInvariant :
    (ready (State.reset.setI 0xFFE) 0xFA33).Inv ∧ answers (step (ready (State.reset.setI 0xFFE) 0xFA33)) = true :=
  ⟨⟨by decide, by decide, fun _ => rfl, fun h => absurd h (by decide)⟩, by decide⟩

theorem witness_EveryStepAfterInitCompletes : State.reset.inited = true := by decide

theorem witness_BeforeInitOnlyInitIsPerformed :
    ({ State.reset with inited := false } : State).inited = false ∧ Transaction.tick ≠ .init := by decide

theorem witness_CanonicalMemoriesWithEqualBytesAreEqual :
    Memory.wf defaultParams [(0x000, 1), (0x050, 0), (0xFFF, 2)] = true := by decide

theorem witness_StoredBytesAreFetched :
    answers (exec (.storeRegs 1) ((regs 1 2).setI 0xFFF)) = true ∧ (1 : Reg) ≤ 1 ∧
    (0x1000 : Word).toNat % 0x1000 = (((regs 1 2).setI 0xFFF).i.toNat + 1) % 0x1000 ∧
    ((0xFFF : Word).toNat + 1) % 0x1000 = (((regs 1 2).setI 0xFFF).i.toNat + 1) % 0x1000 := by decide

theorem witness_EachPieceOfStateHasOnlyItsWriters :
    changes (fun t => t.getV 0xA) (.cycle none) (placed State.reset 0x6A9C) = true ∧
    changes (fun t => t.getV 15) (.cycle none) (placed (regs 5 5) 0x8015) = true ∧
    changes (fun t => t.i) (.cycle none) (placed State.reset 0xA300) = true ∧
    changes (fun t => t.pc) (.cycle none) (placed State.reset 0x1ABC) = true ∧
    changes (fun t => t.pc) (.load []) { State.reset with pc := 0x300 } = true ∧
    changes (fun t => t.stack) (.cycle none) (placed State.reset 0x2456) = true ∧
    changes (fun t => t.sp) (.cycle none) (placed { State.reset with sp := 16 } 0x00EE) = true ∧
    changes (fun t => t.dt) .tick (State.reset.setDt 1) = true ∧
    changes (fun t => t.st) (.cycle none) (placed (regs 1 0) 0xF018) = true ∧
    changes (fun t => t.fb.get 0 0) (.cycle none) (placed (State.reset.setI 0x50) 0xD001) = true ∧
    changes (fun t => t.key) (.keySet 15 true) State.reset = true ∧
    changes (fun t => t.renderReq) (.cycle none) (placed State.reset 0x00E0) = true ∧
    changes (fun t => t.renderReq) .renderAck { State.reset with renderReq := true } = true ∧
    changes (fun t => t.beepReq) .tick (State.reset.setSt 2) = true ∧
    changes (fun t => t.errLog) (.cycle none) (placed State.reset 0x00EE) = true := by decide

theorem witness_MemoryIsWrittenOnlyByStoresInitAndLoad :
    changes (fun t => t.byteAt 0xFFF) (.cycle none) (placed ((regs 1 2).setI 0xFFF) 0xF055) = true ∧
    changes (fun t => t.byteAt 0x200) (.load [0x12]) State.reset = true ∧
    changes (fun t => t.byteAt 0x050) .init (State.reset.setByte 0x050 0) = true := by decide

theorem witness_UnreadStateHasNoInfluence :
    SameToProgram State.reset
      { State.reset with st := 1, beepReq := true, renderReq := true, errLog := 15, stack := Vector.replicate 16 1 } ∧
    answers (step State.reset) = true :=
  ⟨⟨rfl, rfl, rfl, rfl, fun k h => absurd h (Nat.not_lt_zero k.val), rfl, rfl, rfl, rfl, rfl, rfl, rfl, rfl, rfl, rfl⟩,
    by decide⟩

theorem witness_LoadCopiesTheImageOrRejectsIt :
    State.reset.inited = true ∧ (List.replicate 3585 (0 : Byte)).length > 3584 ∧
    (List.replicate 3584 (0 : Byte)).length ≤ 3584 ∧ 3583 < (List.replicate 3584 (0 : Byte)).length := by
  refine ⟨rfl, ?_, ?_, ?_⟩ <;> rw [List.length_replicate] <;> decide

theorem witness_TimersCountDownOverTicks : 0 < 1 ∧ 1 < (State.reset.setSt 2).st.toNat := by decide

theorem witness_KeySetAndRenderAckChangeOneThing : State.reset.inited = true ∧ (0 : Fin 16) ≠ 15 := by decide

theorem witness_TransactionsRunInTheHostsOrder :
    ({ State.reset with pending := [.tick, .init] } : State).pending = .tick :: [.init] ∧ State.reset.pending = [] ∧
    answers (transact .tick State.reset) = true := by decide

theorem witness_SysOnlyAdvances : (0x0EF : Imm12) ≠ 0x0E0 ∧ (0x0EF : Imm12) ≠ 0x0EE := by decide

theorem witness_RetPopsOrReportsUnderflow :
    State.reset.sp = 0 ∧ ({ State.reset with sp := 16 } : State).sp.val = (15 : Fin 16).val + 1 ∧
    ({ State.reset with sp := 1 } : State).sp.val = (0 : Fin 16).val + 1 := by decide

theorem witness_CallPushesOrReportsOverflow :
    ({ State.reset with sp := 16 } : State).sp = 16 ∧ ({ State.reset with sp := 15 } : State).sp.val = (15 : Fin 16).val ∧
    State.reset.sp.val = (0 : Fin 16).val := by decide

theorem witness_JpV0AddsARegister :
    State.reset.params.jumpVx = false ∧ (params (fun p => { p with jumpVx := true }) State.reset).params.jumpVx = true ∧
    (15 : Reg).val = (0xFFF : Imm12).toNat / 0x100 := by decide

theorem witness_SkipsOnRegister :
    (1 : Nibble) ≠ 0 ∧ (0x5FF1 : Word) = BitVec.ofNat 16 (0x5000 + 0x100 * 15 + 0x10 * 15 + 1) ∧
    (15 : Nibble) ≠ 0 ∧ (0x900F : Word) = BitVec.ofNat 16 (0x9000 + 0x100 * 0 + 0x10 * 0 + 15) := by decide

theorem witness_JumpToSelfChangesOnlyTheResult :
    decode (placed { State.reset with pc := 0xFFE } 0x1FFE).opcodeAtPc = .instr (.jp 0xFFE) ∧
    (placed { State.reset with pc := 0xFFE } 0x1FFE).pc.toNat = (0xFFE : Imm12).toNat ∧ (0xFFE : Imm12).toNat < 0xFFF := by
  decide

/-- E3, with the return at once: the call at 0x200 to 0x210 holding `00EE`, with 15 occupied slots. -/
theorem witness_CallThenMatchingReturn :
    ∃ s t u : State, NextExecutes s (.call 0x210) ∧ s.sp.val < 16 ∧ step s = .next t ∧ Inside t.sp.val t u ∧ u.sp = t.sp ∧
      NextExecutes u .ret :=
  ⟨((placed { State.reset with sp := 15 } 0x2210).setByte 0x210 0x00).setByte 0x211 0xEE, _, _,
    ⟨rfl, ⟨none, rfl⟩, by decide⟩, by decide, rfl, .refl _ (Nat.le_refl _), rfl, ⟨rfl, ⟨none, rfl⟩, by decide⟩⟩

/-- A CALL with 15 occupied slots, and the last of them. -/
theorem witness_OccupiedStackSlotsAreKept :
    ∃ s t : State, (14 : Fin 16).val < s.sp.val ∧ s.stack[(14 : Fin 16).val] = 0x206 ∧ step s = .next t ∧
      (14 : Fin 16).val < t.sp.val :=
  ⟨placed { State.reset with sp := 15, stack := Vector.replicate 16 0x206 } 0x2210, _, by decide, by decide, rfl, by decide⟩

theorem witness_BitwiseResultsAndLogicFlag :
    (Instr.and 15 0, (State.reset.getV 15 &&& State.reset.getV 0 : Byte), 2) ∈
      [(Instr.or 15 0, State.reset.getV 15 ||| State.reset.getV 0, 1),
        (Instr.and 15 0, State.reset.getV 15 &&& State.reset.getV 0, 2),
        (Instr.xor 15 0, State.reset.getV 15 ^^^ State.reset.getV 0, 3)] ∧
    State.reset.params.logicVfReset = false ∧
    (params (fun p => { p with logicVfReset := true }) State.reset).params.logicVfReset = true ∧ (0 : Reg) ≠ 15 := by decide

theorem witness_SubtractRegistersWithBorrow :
    (Instr.subn 0 15, State.reset.getV 15, State.reset.getV 0, 7) ∈
      [(Instr.sub 0 15, State.reset.getV 0, State.reset.getV 15, 5),
        (Instr.subn 0 15, State.reset.getV 15, State.reset.getV 0, 7)] ∧ (0 : Reg) ≠ 15 := by decide

theorem witness_ShiftsByOneWithBitOut :
    (0xFF : Byte) = (if (regs 0xFF 1).params.shiftSrcVy = true then (regs 0xFF 1).getV 1 else (regs 0xFF 1).getV 0) ∧
    (1 : Byte) = (if (params (fun p => { p with shiftSrcVy := true }) (regs 0xFF 1)).params.shiftSrcVy = true
      then (regs 0xFF 1).getV 1 else (regs 0xFF 1).getV 0) := by decide

theorem witness_RandomByteMasked :
    ({ State.reset with randomIn := some 0xFF } : State).randomIn = some 0xFF ∧ State.reset.randomIn = none ∧
    decode (placed State.reset 0xCFFF).opcodeAtPc = .instr (.rnd 15 0xFF) := by decide

theorem witness_AddToIndexWithFlag :
    State.reset.params.fx1eVf = true ∧ (params (fun p => { p with fx1eVf := false }) State.reset).params.fx1eVf = false := by
  decide

theorem witness_StoreAndLoadRegistersFromIndex :
    (0 : Reg) ≤ 0 ∧ (15 : Reg) ≤ 15 ∧ (14 : Reg) < 15 ∧ State.reset.params.ldstIncI = false ∧
    (params (fun p => { p with ldstIncI := true }) State.reset).params.ldstIncI = true := by decide

/-- Both clauses on VF: DS4 with one pixel, and an empty framebuffer. -/
theorem witness_DrawTogglesTheSpriteAndFlagsCollision :
    reading (fun t => (t.fb.get 0 0, t.getV 15))
      (ready ((State.reset.setI 0x50).setFb (State.reset.fb.toggle 0 0)) 0xD001) = some (false, 1) ∧
    reading (fun t => (t.fb.get 0 0, t.getV 15)) (ready (State.reset.setI 0x50) 0xD001) = some (true, 0) := by decide

/-- E6: from a clear framebuffer, with the nonzero byte 0xF0 at the font's start. -/
theorem witness_DrawingTwiceCancels :
    ∃ s t u : State, exec (.drw 0 1 1) s = .next t ∧ exec (.drw 0 1 1) t = .next u ∧ (0 : Reg) ≠ 15 ∧ (1 : Reg) ≠ 15 ∧
      (∀ (px : Fin 64) (py : Fin 32), s.fb[py.val][px.val] = false) ∧ s.byteAt (s.indexPlus 0) ≠ 0 :=
  ⟨State.reset.setI 0x50, _, _, rfl, rfl, by decide, by decide, by simp [State.reset, State.setI], by decide⟩

theorem witness_SkipsOnKey : (15 : Reg).val = ((regs 0xFF 0).getV 0).toNat % 16 := by decide

theorem witness_WaitForKeyTakesTheLeastOrHolds :
    (keySet 15 true State.reset).keyDown 15 = true ∧ (∀ j : Fin 16, j < 15 → (keySet 15 true State.reset).keyDown j = false) ∧
    (∀ k, State.reset.keyDown k = false) := by decide

end Sys2Proof.Tests
end

/-! PROOFS. Completion (R13, R213, R240): every instruction, every cycle and, after INIT, every transaction answers a next
state, and none of them undoes INIT. -/

namespace Sys2Proof.Machine

/-! ### The shared operations and loops keep the record of INIT -/

@[simp] theorem memWrite_inited (a : Nat) (v : Byte) (s : State) : (memWrite a v s).inited = s.inited := by
  simp [memWrite]

@[simp] theorem randomByte_inited (s : State) : (randomByte s).2.inited = s.inited := by
  unfold randomByte; split <;> rfl

@[simp] theorem storeUpTo_inited (n : Nat) (s : State) : (storeUpTo n s).inited = s.inited := by
  induction n with
  | zero => rfl
  | succ n ih => simp [storeUpTo, ih]

@[simp] theorem loadUpTo_inited (n : Nat) (s : State) : (loadUpTo n s).inited = s.inited := by
  induction n with
  | zero => rfl
  | succ n ih => simp [loadUpTo, ih]

@[simp] theorem drawRows_inited (x0 y0 n : Nat) (s : State) : (drawRows x0 y0 n s).1.inited = s.inited := by
  induction n with
  | zero => rfl
  | succ n ih => simp [drawRows, ih]

@[simp] theorem loadBytes_inited (a : Nat) (bs : List Byte) (s : State) : (loadBytes a bs s).inited = s.inited := by
  rw [loadBytes_eq]

@[simp] theorem loadProgram_inited (bs : List Byte) (s : State) : (loadProgram bs s).inited = s.inited := by
  unfold loadProgram; split <;> simp

@[simp] theorem fetched_inited (r : Option Byte) (s : State) : (fetched r s).inited = s.inited := by
  simp [fetched_eq]

@[simp] theorem nextTransaction_inited (s : State) : (nextTransaction s).2.inited = s.inited := by
  unfold nextTransaction; split <;> rfl

/-! ### Completion -/

/-- The wait for a key has two outcomes, the least key taken and the hold, and both are next states (R193). -/
theorem execLdVxK_completes (x : Reg) (s : State) : ∃ t, execLdVxK x s = .next t ∧ t.inited = s.inited := by
  unfold execLdVxK
  cases s.leastKey with
  | some k => exact ⟨_, rfl, by simp⟩
  | none => exact ⟨_, rfl, by simp⟩

/-- Every instruction but the wait for a key answers one next state by its very form, made of operations that keep `inited`. -/
theorem exec_completes (i : Instr) (s : State) : ∃ t, exec i s = .next t ∧ t.inited = s.inited := by
  cases i
  case ldVxK x => exact execLdVxK_completes x s
  all_goals exact ⟨_, rfl, by simp⟩

/-- An error of the decoder is reported and stepped over like any other (R77, R213). -/
theorem execDecoded_completes (d : Decoded) (s : State) : ∃ t, execDecoded d s = .next t ∧ t.inited = s.inited := by
  cases d with
  | instr i => exact exec_completes i s
  | unknown op => exact ⟨_, rfl, by simp⟩

theorem cycle_completes (r : Option Byte) (s : State) : ∃ t, cycle r s = .next t ∧ t.inited = s.inited := by
  obtain ⟨u, hu, hi⟩ := execDecoded_completes (decode s.opcodeAtPc) (fetched r s)
  exact ⟨endCycle u, by rw [cycle_eq, hu, mapNext], by simp [hi]⟩

theorem transact_completes (x : Transaction) {s : State} (h : s.inited = true) :
    ∃ t, transact x s = .next t ∧ t.inited = true := by
  cases x with
  | init => exact ⟨initMachine s, rfl, rfl⟩
  | load bytes => exact ⟨loadProgram bytes s, whenInited_eq_next.mpr ⟨h, rfl⟩, by simp [h]⟩
  | cycle r =>
    obtain ⟨t, ht, hi⟩ := cycle_completes r s
    exact ⟨t, whenInited_eq_next.mpr ⟨h, ht⟩, hi.trans h⟩
  | tick => exact ⟨tick s, whenInited_eq_next.mpr ⟨h, rfl⟩, h⟩
  | keySet k v => exact ⟨keySet k v s, whenInited_eq_next.mpr ⟨h, rfl⟩, h⟩
  | renderAck => exact ⟨renderAck s, whenInited_eq_next.mpr ⟨h, rfl⟩, h⟩

/-! ### The statements -/

/-- Settles O15: a step is the host's next transaction, and taking it from the schedule keeps `inited`. -/
theorem everyStepAfterInitCompletes : Obligations.EveryStepAfterInitCompletes := fun s h =>
  transact_completes (nextTransaction s).1 ((nextTransaction_inited s).trans h)

/-- Settles O17, by the case split on the instruction in `exec_completes`. -/
theorem everyInstructionCompletes : Obligations.EveryInstructionCompletes := fun i s =>
  let ⟨t, ht, _⟩ := exec_completes i s
  ⟨t, ht⟩

end Sys2Proof.Machine

/-! PROOFS. Noninterference (R28, R37): what no instruction reads. Every shared operation takes two states that are the same to
the program to two such states, and so does every instruction and every transaction made of them. -/

namespace Sys2Proof.Machine

/-- The stack pointer is at most 16 (R26). -/
theorem State.sp_eq_full (s : State) (h : ¬ s.sp.val < 16) : s.sp = 16 :=
  Fin.ext (Nat.le_antisymm (Nat.le_of_lt_succ s.sp.isLt) (Nat.le_of_not_lt h))

/-! ### States that differ in what no instruction reads -/

/-- The pieces of state `SameToProgram` leaves free; of the stack, the slots above sp only. -/
structure Unread where
  stack : Vector Word 16
  st : Byte
  beepReq : Bool
  renderReq : Bool
  errLog : BitVec 4
  loadResult : Option LoadResult

/-- `s` with the unread pieces `u`. -/
def State.withUnread (s : State) (u : Unread) : State :=
  { s with
    stack := u.stack, st := u.st, beepReq := u.beepReq, renderReq := u.renderReq, errLog := u.errLog
    loadResult := u.loadResult }

theorem sameToProgram_withUnread {s : State} {u : Unread}
    (hu : ∀ k : Fin 16, k.val < s.sp.val → u.stack[k.val] = s.stack[k.val]) : SameToProgram s (s.withUnread u) :=
  ⟨rfl, rfl, rfl, rfl, hu, rfl, rfl, rfl, rfl, rfl, rfl, rfl, rfl, rfl, rfl⟩

namespace SameToProgram

variable {s s' : State}

theorem exists_withUnread (h : SameToProgram s s') :
    ∃ u : Unread, s' = s.withUnread u ∧ ∀ k : Fin 16, k.val < s.sp.val → u.stack[k.val] = s.stack[k.val] := by
  obtain ⟨v', i', pc', stack', sp', dt', st', key', fb', mem', renderReq', beepReq', errLog', result', loadResult', inited',
    params', pending', randomIn', draws'⟩ := s'
  obtain ⟨rfl, rfl, rfl, rfl, hstack, rfl, rfl, rfl, rfl, rfl, rfl, rfl, rfl, rfl, rfl⟩ := h
  exact ⟨⟨stack', st', beepReq', renderReq', errLog', loadResult'⟩, rfl, hstack⟩

/-- An update that treats the unread pieces apart from the rest, and leaves the stack alone, keeps two states the same. -/
theorem map (h : SameToProgram s s') (f : State → State) (g : Unread → Unread)
    (hf : ∀ u, f (s.withUnread u) = (f s).withUnread (g u)) (hg : ∀ u, (g u).stack = u.stack)
    (hsp : (f s).sp = s.sp) (hstack : (f s).stack = s.stack) : SameToProgram (f s) (f s') := by
  obtain ⟨u, rfl, hu⟩ := h.exists_withUnread
  rw [hf]
  exact sameToProgram_withUnread fun k hk => by simpa [hg, hstack] using hu k (hsp ▸ hk)

/-! ### What an instruction reads is the same -/

/-- A reading that the unread pieces have no part in is the same. -/
theorem read {α : Type} (h : SameToProgram s s') (f : State → α) (hf : ∀ u, f (s.withUnread u) = f s) : f s' = f s := by
  obtain ⟨u, rfl, -⟩ := h.exists_withUnread
  exact hf u

theorem getV (h : SameToProgram s s') (r : Reg) : s'.getV r = s.getV r := h.read (·.getV r) fun _ => rfl

theorem byteAt (h : SameToProgram s s') (a : Nat) : s'.byteAt a = s.byteAt a := h.read (·.byteAt a) fun _ => rfl

theorem i (h : SameToProgram s s') : s'.i = s.i := h.read (·.i) fun _ => rfl

theorem dt (h : SameToProgram s s') : s'.dt = s.dt := h.read (·.dt) fun _ => rfl

theorem fb (h : SameToProgram s s') : s'.fb = s.fb := h.read (·.fb) fun _ => rfl

theorem pc (h : SameToProgram s s') : s'.pc = s.pc := h.read (·.pc) fun _ => rfl

theorem inited (h : SameToProgram s s') : s'.inited = s.inited := h.read (·.inited) fun _ => rfl

theorem params (h : SameToProgram s s') : s'.params = s.params := h.read (·.params) fun _ => rfl

theorem pending (h : SameToProgram s s') : s'.pending = s.pending := h.read (·.pending) fun _ => rfl

theorem keyDown (h : SameToProgram s s') (k : Fin 16) : s'.keyDown k = s.keyDown k := h.read (·.keyDown k) fun _ => rfl

theorem leastKey (h : SameToProgram s s') : s'.leastKey = s.leastKey := h.read (·.leastKey) fun _ => rfl

theorem opcodeAtPc (h : SameToProgram s s') : s'.opcodeAtPc = s.opcodeAtPc := h.read (·.opcodeAtPc) fun _ => rfl

theorem indexPlus (h : SameToProgram s s') (k : Nat) : s'.indexPlus k = s.indexPlus k := h.read (·.indexPlus k) fun _ => rfl

theorem shiftSource (h : SameToProgram s s') (x y : Reg) : s'.shiftSource x y = s.shiftSource x y :=
  h.read (·.shiftSource x y) fun _ => rfl

theorem jumpBase (h : SameToProgram s s') (nnn : Imm12) : s'.jumpBase nnn = s.jumpBase nnn :=
  h.read (·.jumpBase nnn) fun _ => rfl

theorem keyIndex (h : SameToProgram s s') (x : Reg) : s'.keyIndex x = s.keyIndex x := h.read (·.keyIndex x) fun _ => rfl

theorem glyphAddress (h : SameToProgram s s') (x : Reg) : s'.glyphAddress x = s.glyphAddress x :=
  h.read (·.glyphAddress x) fun _ => rfl

theorem spriteX (h : SameToProgram s s') (x : Reg) : s'.spriteX x = s.spriteX x := h.read (·.spriteX x) fun _ => rfl

theorem spriteY (h : SameToProgram s s') (y : Reg) : s'.spriteY y = s.spriteY y := h.read (·.spriteY y) fun _ => rfl

theorem randomByte_fst (h : SameToProgram s s') : (randomByte s').1 = (randomByte s).1 := by
  obtain ⟨u, rfl, -⟩ := h.exists_withUnread
  cases hr : s.randomIn with
  | some r => rw [randomByte_given hr, randomByte_given (show (s.withUnread u).randomIn = some r from hr)]
  | none => rw [randomByte_free hr, randomByte_free (show (s.withUnread u).randomIn = none from hr)]; rfl

/-! ### The shared operations keep two states the same -/

theorem setV (h : SameToProgram s s') (r : Reg) {b b' : Byte} (hb : b' = b) : SameToProgram (s.setV r b) (s'.setV r b') :=
  hb ▸ h.map (·.setV r b') id (fun _ => rfl) (fun _ => rfl) rfl rfl

theorem setFlag (h : SameToProgram s s') {c c' : Bool} (hc : c' = c) : SameToProgram (s.setFlag c) (s'.setFlag c') :=
  h.setV Reg.flag (congrArg flagByte hc)

theorem setI (h : SameToProgram s s') {w w' : Word} (hw : w' = w) : SameToProgram (s.setI w) (s'.setI w') :=
  hw ▸ h.map (·.setI w') id (fun _ => rfl) (fun _ => rfl) rfl rfl

theorem setDt (h : SameToProgram s s') {b b' : Byte} (hb : b' = b) : SameToProgram (s.setDt b) (s'.setDt b') :=
  hb ▸ h.map (·.setDt b') id (fun _ => rfl) (fun _ => rfl) rfl rfl

theorem setSt (h : SameToProgram s s') {b b' : Byte} (hb : b' = b) : SameToProgram (s.setSt b) (s'.setSt b') :=
  hb ▸ h.map (·.setSt b') ({ · with st := b' }) (fun _ => rfl) (fun _ => rfl) rfl rfl

theorem setFb (h : SameToProgram s s') {g g' : Framebuffer} (hg : g' = g) : SameToProgram (s.setFb g) (s'.setFb g') :=
  hg ▸ h.map (·.setFb g') id (fun _ => rfl) (fun _ => rfl) rfl rfl

theorem setByte (h : SameToProgram s s') (a : Nat) {b b' : Byte} (hb : b' = b) :
    SameToProgram (s.setByte a b) (s'.setByte a b') :=
  hb ▸ h.map (·.setByte a b') id (fun _ => rfl) (fun _ => rfl) rfl rfl

theorem jumpTo (h : SameToProgram s s') {w w' : Word} (hw : w' = w) : SameToProgram (s.jumpTo w) (s'.jumpTo w') :=
  hw ▸ h.map (·.jumpTo w') id (fun _ => rfl) (fun _ => rfl) rfl rfl

theorem skipIf (h : SameToProgram s s') {c c' : Bool} (hc : c' = c) : SameToProgram (s.skipIf c) (s'.skipIf c') :=
  hc ▸ h.map (·.skipIf c') id (fun _ => rfl) (fun _ => rfl) rfl rfl

theorem advance (h : SameToProgram s s') : SameToProgram s.advance s'.advance :=
  h.map State.advance id (fun _ => rfl) (fun _ => rfl) rfl rfl

theorem reportWaiting (h : SameToProgram s s') : SameToProgram s.reportWaiting s'.reportWaiting :=
  h.map State.reportWaiting id (fun _ => rfl) (fun _ => rfl) rfl rfl

theorem requestRender (h : SameToProgram s s') : SameToProgram s.requestRender s'.requestRender :=
  h.map State.requestRender ({ · with renderReq := true }) (fun _ => rfl) (fun _ => rfl) rfl rfl

theorem raise (h : SameToProgram s s') (e : ErrorClass) : SameToProgram (raise e s) (raise e s') :=
  h.map (Machine.raise e) (fun u => { u with errLog := u.errLog ||| e.bit }) (fun _ => rfl) (fun _ => rfl) rfl rfl

theorem raiseOutOfBounds (h : SameToProgram s s') (a : Nat) : SameToProgram (raiseOutOfBounds a s) (raiseOutOfBounds a s') :=
  h.map (Machine.raiseOutOfBounds a) (fun u => { u with errLog := u.errLog ||| ErrorClass.memoryOutOfBounds.bit })
    (fun _ => rfl) (fun _ => rfl) rfl rfl

theorem checkAddress (h : SameToProgram s s') {a a' : Nat} (ha : a' = a) :
    SameToProgram (checkAddress a s) (checkAddress a' s') := by
  subst ha
  unfold Machine.checkAddress
  split
  · exact h.raiseOutOfBounds a'
  · exact h

theorem memWrite (h : SameToProgram s s') {a a' : Nat} (ha : a' = a) {b b' : Byte} (hb : b' = b) :
    SameToProgram (memWrite a b s) (memWrite a' b' s') := by
  subst ha
  exact (h.checkAddress rfl).setByte a' hb

theorem recordOp (h : SameToProgram s s') {op op' : Word} (hop : op' = op) :
    SameToProgram (s.recordOp op) (s'.recordOp op') :=
  hop ▸ h.map (·.recordOp op') id (fun _ => rfl) (fun _ => rfl) rfl rfl

theorem beginCycle (h : SameToProgram s s') (r : Option Byte) : SameToProgram (beginCycle r s) (beginCycle r s') :=
  h.map (Machine.beginCycle r) id (fun _ => rfl) (fun _ => rfl) rfl rfl

theorem endCycle (h : SameToProgram s s') : SameToProgram (endCycle s) (endCycle s') :=
  h.map Machine.endCycle id (fun _ => rfl) (fun _ => rfl) rfl rfl

theorem logicFlag (h : SameToProgram s s') : SameToProgram s.logicFlag s'.logicFlag := by
  unfold State.logicFlag
  rw [h.params]
  split
  · exact h.setFlag rfl
  · exact h

theorem indexFlag (h : SameToProgram s s') {c c' : Bool} (hc : c' = c) : SameToProgram (s.indexFlag c) (s'.indexFlag c') := by
  unfold State.indexFlag
  rw [h.params]
  split
  · exact h.setFlag hc
  · exact h

theorem postIncrement (h : SameToProgram s s') (x : Reg) : SameToProgram (s.postIncrement x) (s'.postIncrement x) := by
  unfold State.postIncrement
  rw [h.params]
  split
  · exact h.setI (by rw [h.i])
  · exact h

theorem randomByte_snd (h : SameToProgram s s') : SameToProgram (randomByte s).2 (randomByte s').2 := by
  refine h.map (fun s => (randomByte s).2) id (fun u => ?_) (fun _ => rfl) ?_ ?_ <;>
    cases hr : s.randomIn <;> simp [randomByte, State.withUnread, hr]

/-- CALL writes the slot at sp, the same slot with the same address in both states (R103). -/
theorem callTo (h : SameToProgram s s') (w : Word) : SameToProgram (callTo w s) (callTo w s') := by
  obtain ⟨u, rfl, hu⟩ := h.exists_withUnread
  by_cases hsp : s.sp.val < 16
  · rw [callTo_of_lt w s hsp, callTo_of_lt w (s.withUnread u) hsp]
    refine sameToProgram_withUnread (u := { u with stack := u.stack.set s.sp.val (s.pc + 2) hsp }) fun k hk => ?_
    have hk : k.val < s.sp.val + 1 := hk
    by_cases hks : s.sp.val = k.val
    · simp [hks]
    · simpa [hks] using hu k (by omega)
  · have hfull := s.sp_eq_full hsp
    rw [callTo_of_full w s hfull, callTo_of_full w (s.withUnread u) hfull]
    exact (h.raise .stackOverflow).advance

/-- RET reads the slot below sp, an occupied one (R101). -/
theorem returnToCaller (h : SameToProgram s s') : SameToProgram (returnToCaller s) (returnToCaller s') := by
  obtain ⟨u, rfl, hu⟩ := h.exists_withUnread
  by_cases hsp : s.sp = 0
  · rw [returnToCaller_of_empty s hsp, returnToCaller_of_empty (s.withUnread u) hsp]
    exact (h.raise .stackUnderflow).advance
  · obtain ⟨k, hk⟩ : ∃ k : Fin 16, s.sp.val = k.val + 1 :=
      ⟨⟨s.sp.val - 1, by omega⟩, by have : s.sp.val ≠ 0 := fun e => hsp (Fin.ext e); simp; omega⟩
    have htop : (s.withUnread u).stack[k.val] = s.stack[k.val] := hu k (by omega)
    rw [returnToCaller_of_pos s k hk, returnToCaller_of_pos (s.withUnread u) k hk, htop]
    exact sameToProgram_withUnread fun j hj => hu j (by have : j.val < k.val := hj; omega)

/-! ### The loops keep two states the same -/

theorem storeUpTo (h : SameToProgram s s') (n : Nat) : SameToProgram (storeUpTo n s) (storeUpTo n s') := by
  induction n with
  | zero => exact h
  | succ n ih => exact ih.memWrite (h.indexPlus n) (h.getV _)

theorem loadUpTo (h : SameToProgram s s') (n : Nat) : SameToProgram (loadUpTo n s) (loadUpTo n s') := by
  induction n with
  | zero => exact h
  | succ n ih =>
    have ha := ih.indexPlus n
    exact (ih.checkAddress ha).setV _ (by simp only [ha, ih.byteAt])

/-- The rows read the same bytes, so they are drawn on equal framebuffers with equal collisions (R182). -/
theorem drawRows (h : SameToProgram s s') (x0 y0 n : Nat) :
    SameToProgram (drawRows x0 y0 n s).1 (drawRows x0 y0 n s').1 ∧ (drawRows x0 y0 n s').2 = (drawRows x0 y0 n s).2 := by
  induction n with
  | zero => exact ⟨h, rfl⟩
  | succ n ih =>
    obtain ⟨hs, hcol⟩ := ih
    have ha := hs.indexPlus n
    have hc := hs.checkAddress ha
    simp only [Machine.drawRows, memRead_fst, memRead_snd, hs.byteAt, ha, hcol]
    rw [ha] at hc
    exact ⟨hc.setFb (by simp only [checkAddress_fb, hs.fb]), by simp only [checkAddress_fb, hs.fb]⟩

theorem fetched (h : SameToProgram s s') (r : Option Byte) : SameToProgram (fetched r s) (fetched r s') := by
  rw [fetched_eq, fetched_eq, h.opcodeAtPc, h.pc]
  exact (((h.beginCycle r).checkAddress rfl).checkAddress rfl).recordOp rfl

end SameToProgram

/-! ### Instructions and transactions -/

/-- Two outcomes that are the same to the program: two next states that are, or the same refusal. -/
inductive SameOutcome : Result → Result → Prop where
  | next {t t' : State} (h : SameToProgram t t') : SameOutcome (.next t) (.next t')
  | refused (r : Refusal) : SameOutcome (.refused r) (.refused r)

theorem SameOutcome.exists_next {r r' : Result} {t : State} (h : SameOutcome r r') (hr : r = .next t) :
    ∃ t', r' = .next t' ∧ SameToProgram t t' := by
  cases h with
  | next h => cases hr; exact ⟨_, rfl, h⟩
  | refused e => cases hr

theorem SameOutcome.mapNext_endCycle {r r' : Result} (h : SameOutcome r r') :
    SameOutcome (mapNext endCycle r) (mapNext endCycle r') := by
  cases h with
  | next h => exact .next h.endCycle
  | refused e => exact .refused e

variable {s s' : State}

theorem execLdVxK_same (h : SameToProgram s s') (x : Reg) : SameOutcome (execLdVxK x s) (execLdVxK x s') := by
  unfold execLdVxK
  rw [h.leastKey]
  cases s.leastKey with
  | some k => exact .next (h.setV x rfl).advance
  | none => exact .next h.reportWaiting

/-- Every instruction is made of operations that keep two states the same, on operands that are equal. -/
theorem exec_same (h : SameToProgram s s') (i : Instr) : SameOutcome (exec i s) (exec i s') := by
  have hv := h.getV
  have hsh := h.shiftSource
  cases i with
  | cls => exact .next (h.setFb rfl).requestRender.advance
  | ret => exact .next h.returnToCaller
  | sys _ => exact .next h.advance
  | jp _ => exact .next (h.jumpTo rfl)
  | call nnn => exact .next (h.callTo (zext16 nnn))
  | seByte x _ => exact .next (h.skipIf (by rw [hv]))
  | sneByte x _ => exact .next (h.skipIf (by rw [hv]))
  | seReg x y => exact .next (h.skipIf (by rw [hv, hv]))
  | sneReg x y => exact .next (h.skipIf (by rw [hv, hv]))
  | jpV0 nnn => exact .next (h.jumpTo (by rw [h.jumpBase, hv]))
  | ldByte x _ => exact .next (h.setV x rfl).advance
  | addByte x _ => exact .next (h.setV x (by rw [hv])).advance
  | ldReg x y => exact .next (h.setV x (hv y)).advance
  | or x y => exact .next (h.setV x (by rw [hv, hv])).logicFlag.advance
  | and x y => exact .next (h.setV x (by rw [hv, hv])).logicFlag.advance
  | xor x y => exact .next (h.setV x (by rw [hv, hv])).logicFlag.advance
  | addReg x y => exact .next ((h.setV x (by rw [hv, hv])).setFlag (by rw [hv, hv])).advance
  | sub x y => exact .next ((h.setV x (by rw [hv, hv])).setFlag (by rw [hv, hv])).advance
  | subn x y => exact .next ((h.setV x (by rw [hv, hv])).setFlag (by rw [hv, hv])).advance
  | shr x y => exact .next ((h.setV x (by rw [hsh])).setFlag (by rw [hsh])).advance
  | shl x y => exact .next ((h.setV x (by rw [hsh])).setFlag (by rw [hsh])).advance
  | rnd x _ => exact .next (h.randomByte_snd.setV x (by rw [h.randomByte_fst])).advance
  | drw x y n =>
    obtain ⟨hs, hcol⟩ := h.drawRows (s.spriteX x) (s.spriteY y) n.toNat
    simp only [exec, execDrw, h.spriteX, h.spriteY]
    exact .next (hs.setFlag hcol).requestRender.advance
  | skp x => exact .next (h.skipIf (by rw [h.keyIndex, h.keyDown]))
  | sknp x => exact .next (h.skipIf (by rw [h.keyIndex, h.keyDown]))
  | ldVxDt x => exact .next (h.setV x h.dt).advance
  | ldVxK x => exact execLdVxK_same h x
  | ldDtVx x => exact .next (h.setDt (hv x)).advance
  | ldStVx x => exact .next (h.setSt (hv x)).advance
  | ldI _ => exact .next (h.setI rfl).advance
  | addI x => exact .next ((h.setI (by rw [h.i, hv])).indexFlag (by rw [h.i, hv])).advance
  | ldF x => exact .next (h.setI (h.glyphAddress x)).advance
  | ldB x =>
    exact .next (((h.memWrite (h.indexPlus 0) (by rw [hv])).memWrite (h.indexPlus 1) (by rw [hv])).memWrite
      (h.indexPlus 2) (by rw [hv])).advance
  | storeRegs x => exact .next ((h.storeUpTo (x.val + 1)).postIncrement x).advance
  | loadRegs x => exact .next ((h.loadUpTo (x.val + 1)).postIncrement x).advance

theorem execDecoded_same (h : SameToProgram s s') (d : Decoded) : SameOutcome (execDecoded d s) (execDecoded d s') := by
  cases d with
  | instr i => exact exec_same h i
  | unknown op => exact .next (h.raise .unknownOpcode).advance

theorem cycle_same (h : SameToProgram s s') (r : Option Byte) : SameOutcome (cycle r s) (cycle r s') := by
  rw [cycle_eq, cycle_eq, h.opcodeAtPc]
  exact (execDecoded_same (h.fetched r) _).mapNext_endCycle

theorem whenInited_same (h : SameToProgram s s') {r r' : Result} (hr : SameOutcome r r') :
    SameOutcome (whenInited s r) (whenInited s' r') := by
  unfold whenInited
  rw [h.inited]
  split
  · exact hr
  · exact .refused .beforeInit

theorem loadBytes_same (h : SameToProgram s s') (a : Nat) (bs : List Byte) :
    SameToProgram (loadBytes a bs s) (loadBytes a bs s') := by
  induction bs generalizing a s s' with
  | nil => exact h
  | cons b bs ih => exact ih (h.setByte a rfl) (a + 1)

theorem loadProgram_same (h : SameToProgram s s') (bs : List Byte) :
    SameToProgram (loadProgram bs s) (loadProgram bs s') := by
  unfold loadProgram
  split
  · exact h.map (fun s => { s with loadResult := some .programTooLarge })
      (fun u => { u with loadResult := some .programTooLarge }) (fun _ => rfl) (fun _ => rfl) rfl rfl
  · exact (loadBytes_same h entry bs).map (fun s => { s with pc := BitVec.ofNat 16 entry, loadResult := some .ok })
      (fun u => { u with loadResult := some .ok }) (fun _ => rfl) (fun _ => rfl) rfl rfl

/-- INIT leaves one state but for the parameters, the schedule and the count of draws, which are the same (R241). -/
theorem initMachine_same (h : SameToProgram s s') : SameToProgram (initMachine s) (initMachine s') := by
  obtain ⟨u, rfl, -⟩ := h.exists_withUnread
  exact ⟨rfl, rfl, rfl, rfl, fun _ _ => rfl, rfl, rfl, rfl, rfl, rfl, rfl, rfl, rfl, rfl, rfl⟩

theorem tick_same (h : SameToProgram s s') : SameToProgram (tick s) (tick s') := by
  obtain ⟨u, rfl, hu⟩ := h.exists_withUnread
  exact sameToProgram_withUnread (s := tick s)
    (u := { u with st := decrementTimer u.st, beepReq := decide ((decrementTimer u.st).toNat > 0) }) hu

theorem transact_same (h : SameToProgram s s') (x : Transaction) : SameOutcome (transact x s) (transact x s') := by
  cases x with
  | init => exact .next (initMachine_same h)
  | load bytes => exact whenInited_same h (.next (loadProgram_same h bytes))
  | cycle r => exact whenInited_same h (cycle_same h r)
  | tick => exact whenInited_same h (.next (tick_same h))
  | keySet k v =>
    exact whenInited_same h (.next (h.map (keySet k v) id (fun _ => rfl) (fun _ => rfl) rfl rfl))
  | renderAck =>
    exact whenInited_same h
      (.next (h.map renderAck ({ · with renderReq := false }) (fun _ => rfl) (fun _ => rfl) rfl rfl))

/-- The schedule is the same, so the next transaction is, and so are the states without it (R247). -/
theorem nextTransaction_same (h : SameToProgram s s') :
    (nextTransaction s').1 = (nextTransaction s).1 ∧ SameToProgram (nextTransaction s).2 (nextTransaction s').2 := by
  unfold nextTransaction
  rw [h.pending]
  cases s.pending with
  | nil => exact ⟨rfl, h⟩
  | cons x xs => exact ⟨rfl, h.map ({ · with pending := xs }) id (fun _ => rfl) (fun _ => rfl) rfl rfl⟩

theorem step_same (h : SameToProgram s s') : SameOutcome (step s) (step s') := by
  obtain ⟨hx, hs⟩ := nextTransaction_same h
  unfold step hostStep
  rw [hx]
  exact transact_same hs _

/-- Settles O23: both states perform one transaction, and every operation it is made of reads equal values in them. -/
theorem unreadStateHasNoInfluence : Obligations.UnreadStateHasNoInfluence := fun _ _ _ h hs =>
  (step_same h).exists_next hs

end Sys2Proof.Machine

/-! PROOFS. The frame of every instruction (R40): the parts of the state it may change, one list an instruction. Every meaning
stays within its list, and the lists have the rows of R40; with them, the frame of every transaction. -/

namespace Sys2Proof
open Machine

/-- The parts of the state an instruction may change when it executes in `s`, the last written first (R40). -/
def Instr.frame (i : Instr) (s : State) : List Part :=
  match i with
  | .sys _ | .jp _ | .jpV0 _ | .seByte _ _ | .sneByte _ _ | .seReg _ _ | .sneReg _ _ | .skp _ | .sknp _ => [.pc]
  | .cls => [.pc, .renderReq, .fb]
  | .ret => if s.sp = 0 then [.pc, .errors] else [.pc, .sp]
  | .call _ => if s.sp.val < 16 then [.pc, .sp, .stack (Fin.ofNat 16 s.sp.val)] else [.pc, .errors]
  | .ldByte x _ | .addByte x _ | .ldReg x _ | .ldVxDt x => [.pc, .v x]
  | .or x _ | .and x _ | .xor x _ => .pc :: ((if s.params.logicVfReset then [.v Reg.flag] else []) ++ [.v x])
  | .addReg x _ | .sub x _ | .shr x _ | .subn x _ | .shl x _ => [.pc, .v Reg.flag, .v x]
  | .rnd x _ => [.pc, .v x, .draws]
  | .drw _ _ _ => [.pc, .renderReq, .v Reg.flag, .fb, .errors]
  | .ldVxK x => [.pc, .v x, .waiting]
  | .ldDtVx _ => [.pc, .dt]
  | .ldStVx _ => [.pc, .st]
  | .ldI _ | .ldF _ => [.pc, .i]
  | .addI _ => .pc :: ((if s.params.fx1eVf then [.v Reg.flag] else []) ++ [.i])
  | .ldB _ => .pc :: (storedCells s.i.toNat 3 ++ [.errors])
  | .storeRegs x =>
    .pc :: ((if s.params.ldstIncI then [.i] else []) ++ (storedCells s.i.toNat (x.val + 1) ++ [.errors]))
  | .loadRegs x =>
    .pc :: ((if s.params.ldstIncI then [.i] else []) ++ .errors :: ((List.finRange 16).filter (· ≤ x)).map .v)

end Sys2Proof

namespace Sys2Proof.Machine

/-! ### A frame after one update more -/

theorem onlyChanges_refl (s : State) (ps : List Part) : OnlyChanges s s ps := fun p _ => p.same_refl s

namespace OnlyChanges

variable {s t u : State} {ps : List Part}

theorem append {qs : List Part} (h : OnlyChanges s t ps) (h' : OnlyChanges t u qs) : OnlyChanges s u (qs ++ ps) :=
  onlyChanges_trans (onlyChanges_mono h fun _ hp => List.mem_append_right qs hp)
    (onlyChanges_mono h' fun _ hp => List.mem_append_left ps hp)

theorem cons (h : OnlyChanges s t ps) {q : Part} (hq : ∀ p, p ≠ q → p.same t u) : OnlyChanges s u (q :: ps) :=
  h.append (qs := [q]) fun p hp => hq p (by simpa using hp)

theorem advance (h : OnlyChanges s t ps) : OnlyChanges s t.advance (.pc :: ps) :=
  h.cons fun p hp => by cases p <;> simp [Part.same] at hp ⊢

theorem jumpTo (h : OnlyChanges s t ps) (w : Word) : OnlyChanges s (t.jumpTo w) (.pc :: ps) :=
  h.cons fun p hp => by cases p <;> simp [Part.same] at hp ⊢

theorem skipIf (h : OnlyChanges s t ps) (c : Bool) : OnlyChanges s (t.skipIf c) (.pc :: ps) :=
  h.cons fun p hp => by cases p <;> simp [Part.same] at hp ⊢

theorem setV (h : OnlyChanges s t ps) (r : Reg) (b : Byte) : OnlyChanges s (t.setV r b) (.v r :: ps) :=
  h.cons fun p hp => by cases p <;> simp_all [Part.same]

theorem setFlag (h : OnlyChanges s t ps) (c : Bool) : OnlyChanges s (t.setFlag c) (.v Reg.flag :: ps) :=
  h.setV Reg.flag (flagByte c)

theorem setI (h : OnlyChanges s t ps) (w : Word) : OnlyChanges s (t.setI w) (.i :: ps) :=
  h.cons fun p hp => by cases p <;> simp [Part.same] at hp ⊢

theorem setDt (h : OnlyChanges s t ps) (b : Byte) : OnlyChanges s (t.setDt b) (.dt :: ps) :=
  h.cons fun p hp => by cases p <;> simp [Part.same] at hp ⊢

theorem setSt (h : OnlyChanges s t ps) (b : Byte) : OnlyChanges s (t.setSt b) (.st :: ps) :=
  h.cons fun p hp => by cases p <;> simp [Part.same] at hp ⊢

theorem setFb (h : OnlyChanges s t ps) (g : Framebuffer) : OnlyChanges s (t.setFb g) (.fb :: ps) :=
  h.cons fun p hp => by cases p <;> simp [Part.same] at hp ⊢

theorem requestRender (h : OnlyChanges s t ps) : OnlyChanges s t.requestRender (.renderReq :: ps) :=
  h.cons fun p hp => by cases p <;> simp [Part.same] at hp ⊢

theorem reportWaiting (h : OnlyChanges s t ps) : OnlyChanges s t.reportWaiting (.waiting :: ps) :=
  h.cons fun p hp => by cases p <;> simp [Part.same] at hp ⊢

theorem raise (h : OnlyChanges s t ps) (e : ErrorClass) : OnlyChanges s (raise e t) (.errors :: ps) :=
  h.cons fun p hp => by cases p <;> simp [Part.same] at hp ⊢

theorem endCycle (h : OnlyChanges s t ps) : OnlyChanges s (endCycle t) (.randomIn :: ps) :=
  h.cons fun p hp => by cases p <;> simp [Part.same] at hp ⊢

theorem logicFlag (h : OnlyChanges s t ps) :
    OnlyChanges s t.logicFlag ((if t.params.logicVfReset then [.v Reg.flag] else []) ++ ps) := by
  unfold State.logicFlag
  split
  · exact h.setFlag false
  · exact h

theorem indexFlag (h : OnlyChanges s t ps) (c : Bool) :
    OnlyChanges s (t.indexFlag c) ((if t.params.fx1eVf then [.v Reg.flag] else []) ++ ps) := by
  unfold State.indexFlag
  split
  · exact h.setFlag c
  · exact h

theorem postIncrement (h : OnlyChanges s t ps) (hp : t.params = s.params) (x : Reg) :
    OnlyChanges s (t.postIncrement x) ((if s.params.ldstIncI then [.i] else []) ++ ps) := by
  unfold State.postIncrement
  rw [hp]
  split
  · exact h.setI _
  · exact h

end OnlyChanges

/-! ### Every instruction stays within its frame -/

theorem randomByte_onlyChanges (s : State) : OnlyChanges s (randomByte s).2 [.draws] := by
  unfold randomByte
  split
  · exact onlyChanges_refl s _
  · intro p hp; cases p <;> simp [Part.same] at hp ⊢ <;> rfl

/-- RET pops a slot, keeping its content, or reports (R101). -/
theorem returnToCaller_onlyChanges (s : State) : OnlyChanges s (returnToCaller s) (Instr.ret.frame s) := by
  by_cases h : s.sp = 0
  · rw [returnToCaller_of_empty s h, Instr.frame, if_pos h]
    exact ((onlyChanges_refl s []).raise .stackUnderflow).advance
  · have hpos : 0 < s.sp.val := Nat.pos_of_ne_zero fun e => h (Fin.ext e)
    rw [returnToCaller, dif_pos hpos, Instr.frame, if_neg h]
    intro p hp; cases p <;> simp [Part.same] at hp ⊢ <;> rfl

/-- CALL writes the slot at sp, the first one not occupied, or reports (R103). -/
theorem callTo_onlyChanges (nnn : Imm12) (s : State) :
    OnlyChanges s (callTo (zext16 nnn) s) ((Instr.call nnn).frame s) := by
  by_cases h : s.sp.val < 16
  · rw [callTo_of_lt _ s h, Instr.frame, if_pos h]
    intro p hp
    cases p
    case stack k =>
      have hk : s.sp.val ≠ k.val := fun e => by simp [e] at hp
      simp [Part.same, hk]
    all_goals simp [Part.same] at hp ⊢ <;> rfl
  · rw [callTo_of_full _ s (s.sp_eq_full h), Instr.frame, if_neg h]
    exact ((onlyChanges_refl s []).raise .stackOverflow).advance

theorem spriteX_lt (s : State) (x : Reg) : s.spriteX x < 64 := Nat.mod_lt _ (by decide)

theorem spriteY_lt (s : State) (y : Reg) : s.spriteY y < 32 := Nat.mod_lt _ (by decide)

theorem drawRows_onlyChanges (x y : Reg) (n : Nibble) (s : State) :
    OnlyChanges s (drawRows (s.spriteX x) (s.spriteY y) n.toNat s).1 [.fb, .errors] := by
  obtain ⟨hsame, -⟩ := drawRows_spec _ _ (spriteX_lt s x) (spriteY_lt s y) s n.toNat (by omega)
  exact fun p hp => hsame p (fun e => hp (by simp [e])) fun e => hp (by simp [e])

theorem loadUpTo_onlyChanges (x : Reg) (s : State) :
    OnlyChanges s (loadUpTo (x.val + 1) s) (.errors :: ((List.finRange 16).filter (· ≤ x)).map .v) := by
  obtain ⟨hsame, -, hv⟩ := loadUpTo_spec (x.val + 1) (by omega) s
  intro p hp
  by_cases hr : ∃ r, p = .v r
  · obtain ⟨r, rfl⟩ := hr
    have hx : ¬ r.val < x.val + 1 := fun hlt => hp (by simpa using Nat.le_of_lt_succ hlt)
    simp [Part.same, hv, hx]
  · exact hsame p (fun e => hp (by simp [e])) fun r e => hr ⟨r, e⟩

theorem bcd_onlyChanges (s : State) (a b c : Byte) :
    OnlyChanges s (memWrite (s.indexPlus 2) c (memWrite (s.indexPlus 1) b (memWrite (s.indexPlus 0) a s)))
      (storedCells s.i.toNat 3 ++ [.errors]) := by
  have cell_mem (k : Nat) (hk : k < 3) : ∀ p ∈ [Part.mem (cell (s.indexPlus k)), .errors],
      p ∈ storedCells s.i.toNat 3 ++ [.errors] := by
    simpa [storedCells, State.indexPlus] using (⟨k, hk, rfl⟩ : ∃ a < 3, cell (s.i.toNat + a) = cell (s.i.toNat + k))
  exact onlyChanges_trans (onlyChanges_trans
    (onlyChanges_mono (memWrite_onlyChanges _ _ _) (cell_mem 0 (by decide)))
    (onlyChanges_mono (memWrite_onlyChanges _ _ _) (cell_mem 1 (by decide))))
    (onlyChanges_mono (memWrite_onlyChanges _ _ _) (cell_mem 2 (by decide)))

theorem storeUpTo_onlyChanges (x : Reg) (s : State) :
    OnlyChanges s (storeUpTo (x.val + 1) s) (storedCells s.i.toNat (x.val + 1) ++ [.errors]) :=
  (storeUpTo_spec (x.val + 1) (by omega) s).1

theorem execLdVxK_onlyChanges {x : Reg} {s t : State} (h : execLdVxK x s = .next t) :
    OnlyChanges s t [.pc, .v x, .waiting] := by
  unfold execLdVxK at h
  cases hk : s.leastKey with
  | some k => rw [hk] at h; cases h; exact ((onlyChanges_refl s _).setV x _).advance
  | none =>
    rw [hk] at h; cases h
    exact onlyChanges_mono (onlyChanges_refl s []).reportWaiting (by simp)

/-- The updates of each meaning, in order, are its frame from the last to the first. -/
theorem exec_onlyChanges {i : Instr} {s t : State} (h : exec i s = .next t) : OnlyChanges s t (i.frame s) := by
  have h0 := onlyChanges_refl s []
  cases i with
  | ldVxK x => exact execLdVxK_onlyChanges h
  | cls => cases h; exact (h0.setFb _).requestRender.advance
  | ret => cases h; exact returnToCaller_onlyChanges s
  | call nnn => cases h; exact callTo_onlyChanges nnn s
  | sys _ => cases h; exact h0.advance
  | jp _ | jpV0 _ => cases h; exact h0.jumpTo _
  | seByte _ _ | sneByte _ _ | seReg _ _ | sneReg _ _ | skp _ | sknp _ => cases h; exact h0.skipIf _
  | ldByte x _ | addByte x _ | ldReg x _ | ldVxDt x => cases h; exact (h0.setV x _).advance
  | or x _ | and x _ | xor x _ => cases h; exact (h0.setV x _).logicFlag.advance
  | addReg x _ | sub x _ | shr x _ | subn x _ | shl x _ => cases h; exact ((h0.setV x _).setFlag _).advance
  | rnd x _ => cases h; exact ((randomByte_onlyChanges s).setV x _).advance
  | drw x y n => cases h; exact ((drawRows_onlyChanges x y n s).setFlag _).requestRender.advance
  | ldDtVx x => cases h; exact (h0.setDt _).advance
  | ldStVx x => cases h; exact (h0.setSt _).advance
  | ldI _ | ldF _ => cases h; exact (h0.setI _).advance
  | addI x => cases h; exact ((h0.setI _).indexFlag _).advance
  | ldB x => cases h; exact (bcd_onlyChanges s _ _ _).advance
  | storeRegs x =>
    cases h
    have hs := storeUpTo_onlyChanges x s
    exact (hs.postIncrement (hs .params (by simp [storedCells])) x).advance
  | loadRegs x =>
    cases h
    have hs := loadUpTo_onlyChanges x s
    exact (hs.postIncrement (hs .params (by simp)) x).advance

/-! ### The rows of R40 -/

/-- The instructions that write each part, as R40 lists them. -/
def Part.writer (s : State) (i : Instr) : Part → Prop
  | .v r => i.resultReg r ∨ r = Reg.flag ∧ i.writesFlag s.params
  | .i => i.writesI s.params
  | .pc => True
  | .stack k => k.val = s.sp.val ∧ ∃ nnn, i = .call nnn
  | .sp => i = .ret ∨ ∃ nnn, i = .call nnn
  | .dt => ∃ x, i = .ldDtVx x
  | .st => ∃ x, i = .ldStVx x
  | .fb | .renderReq => i = .cls ∨ ∃ x y n, i = .drw x y n
  | .mem _ => 0 < i.storeLength
  | .errors => i = .ret ∨ (∃ nnn, i = .call nnn) ∨ (∃ x y n, i = .drw x y n) ∨ 0 < i.accessLength
  | .waiting => ∃ x, i = .ldVxK x
  | .draws => ∃ x nn, i = .rnd x nn
  | .key | .beepReq | .record | .loadResult | .inited | .params | .pending | .randomIn => False

/-- Each part an instruction's frame lists has the instruction among its writers. -/
theorem writer_of_mem_frame {i : Instr} {s : State} : ∀ p ∈ i.frame s, p.writer s i := by
  cases i with
  | ret => simp only [Instr.frame]; split <;> simp [Part.writer]
  | call nnn =>
    simp only [Instr.frame]
    split
    · rename_i h; simp [Part.writer, Nat.mod_eq_of_lt h]
    · simp [Part.writer]
  | _ =>
    simp +contextual [Instr.frame, Part.writer, Instr.resultReg, Instr.writesFlag, Instr.writesI, Instr.storeLength,
      Instr.accessLength, storedCells, or_imp]

/-! ### The frame of a transaction -/

/-- The frame rests on I, sp and the parameters only. -/
theorem frame_congr {s t : State} (hi : t.i = s.i) (hsp : t.sp = s.sp) (hp : t.params = s.params) (i : Instr) :
    i.frame t = i.frame s := by
  cases i <;> simp only [Instr.frame, hi, hsp, hp]

/-- The transactions that write each part themselves, not through an instruction, as R40 lists them; every cycle fills its
record, and steps over an unknown opcode. -/
def Part.hostWriter (x : Transaction) : Part → Prop
  | .v _ | .i | .stack _ | .sp | .fb | .inited => x = .init
  | .pc => x = .init ∨ (∃ r, x = .cycle r) ∨ ∃ bytes, x = .load bytes
  | .dt | .st | .beepReq => x = .init ∨ x = .tick
  | .key => x = .init ∨ ∃ k v, x = .keySet k v
  | .renderReq => x = .init ∨ x = .renderAck
  | .mem _ | .loadResult => x = .init ∨ ∃ bytes, x = .load bytes
  | .errors | .waiting | .record | .randomIn => x = .init ∨ ∃ r, x = .cycle r
  | .params | .pending | .draws => False

theorem loadProgram_same_part (bytes : List Byte) (s : State) {p : Part} (hp : ¬ p.hostWriter (.load bytes)) :
    p.same s (loadProgram bytes s) := by
  unfold loadProgram
  split
  · cases p <;> simp [Part.same, Part.hostWriter] at hp ⊢
    rfl
  · rw [loadBytes_eq]
    cases p <;> simp [Part.same, Part.hostWriter] at hp ⊢
    rfl

theorem cycle_same_part {r : Option Byte} {s t : State} (h : cycle r s = .next t) {p : Part}
    (hp : ¬ p.hostWriter (.cycle r)) (hi : ∀ i, decode s.opcodeAtPc = .instr i → p ∉ i.frame s) : p.same s t := by
  have hf := fetched_onlyChanges r s
  have hrecord : p ∉ [.pc, .errors, .randomIn, .record, .waiting] := fun hmem => hp (by
    simp at hmem; rcases hmem with rfl | rfl | rfl | rfl | rfl <;> simp [Part.hostWriter])
  obtain ⟨u, rfl, ⟨i, hd, hu⟩ | ⟨-, rfl⟩⟩ := cycle_next_cases h
  · have hframe : i.frame (fetched r s) = i.frame s :=
      frame_congr (hf .i (by simp)) (hf .sp (by simp)) (hf .params (by simp)) i
    exact (hf.append (exec_onlyChanges hu)).endCycle p (by have := hi i hd; simp_all)
  · exact ((hf.raise .unknownOpcode).advance).endCycle p (by simp_all)

/-- A transaction keeps what neither it nor the instruction it executes writes (R40). -/
theorem transact_same_part {x : Transaction} {s t : State} (h : transact x s = .next t) {p : Part}
    (hx : ¬ p.hostWriter x) (hi : ∀ i, Executes x s i → p ∉ i.frame s) : p.same s t := by
  cases x with
  | init =>
    cases h
    cases p <;> simp [Part.same, Part.hostWriter, initMachine] at hx ⊢
  | load bytes =>
    obtain ⟨-, h⟩ := whenInited_eq_next.mp h
    cases h
    exact loadProgram_same_part bytes s hx
  | cycle r =>
    obtain ⟨-, h⟩ := whenInited_eq_next.mp h
    exact cycle_same_part h hx fun i hd => hi i ⟨⟨r, rfl⟩, hd⟩
  | tick | keySet k v | renderAck =>
    obtain ⟨-, h⟩ := whenInited_eq_next.mp h
    cases h
    cases p <;> simp [Part.same, Part.hostWriter, tick, keySet, renderAck] at hx ⊢ <;> rfl

/-- What a transaction changed, it writes itself or through the instruction it executes (R40). -/
theorem hostWriter_or_writer {x : Transaction} {s t : State} (h : transact x s = .next t) {p : Part}
    (hp : ¬ p.same s t) : p.hostWriter x ∨ ∃ i, Executes x s i ∧ p.writer s i := by
  by_contra hno
  obtain ⟨hx, hi⟩ := not_or.mp hno
  exact hp (transact_same_part h hx fun i he hmem => hi ⟨i, he, writer_of_mem_frame p hmem⟩)

/-! ### What a cycle reports -/

/-- From `s` to `t` errors are recorded in the result and in the sticky log alike (R212). -/
def AddsErrors (s t : State) : Prop := ∃ e, t.result.err = s.result.err ||| e ∧ t.errLog = s.errLog ||| e

theorem AddsErrors.trans {s t u : State} (h : AddsErrors s t) (h' : AddsErrors t u) : AddsErrors s u := by
  obtain ⟨e, hr, hl⟩ := h
  obtain ⟨e', hr', hl'⟩ := h'
  exact ⟨e ||| e', by rw [hr', hr, BitVec.or_assoc], by rw [hl', hl, BitVec.or_assoc]⟩

theorem addsErrors_of_same {s t : State} (h : Part.errors.same s t) : AddsErrors s t := by
  obtain ⟨herr, -, hlog⟩ := h
  exact ⟨0, by simp [herr], by simp [hlog]⟩

theorem addsErrors_raise (e : ErrorClass) (s : State) : AddsErrors s (raise e s) := ⟨e.bit, rfl, rfl⟩

theorem ReportsRange.addsErrors {a n : Nat} {s t : State} (h : ReportsRange a n s t) : AddsErrors s t := by
  unfold ReportsRange at h
  split at h
  · obtain ⟨herr, hlog, -⟩ := h
    exact ⟨8#4, herr, hlog⟩
  · exact addsErrors_of_same h

theorem addsErrors_checkAddress (a : Nat) (s : State) : AddsErrors s (checkAddress a s) := (reportsRange_one a s).addsErrors

theorem addsErrors_memWrite (a : Nat) (b : Byte) (s : State) : AddsErrors s (memWrite a b s) := addsErrors_checkAddress a s

theorem addsErrors_bcd (s : State) (a b c : Byte) :
    AddsErrors s (memWrite (s.indexPlus 2) c (memWrite (s.indexPlus 1) b (memWrite (s.indexPlus 0) a s))) :=
  ((addsErrors_memWrite _ a s).trans (addsErrors_memWrite _ b _)).trans (addsErrors_memWrite _ c _)

theorem addsErrors_callTo (w : Word) (s : State) : AddsErrors s (callTo w s) := by
  unfold callTo
  split
  · exact addsErrors_of_same ⟨rfl, rfl, rfl⟩
  · exact addsErrors_raise .stackOverflow s

theorem addsErrors_returnToCaller (s : State) : AddsErrors s (returnToCaller s) := by
  unfold returnToCaller
  split
  · exact addsErrors_of_same ⟨rfl, rfl, rfl⟩
  · exact addsErrors_raise .stackUnderflow s

theorem addsErrors_drawRows (x y : Reg) (n : Nibble) (s : State) :
    AddsErrors s (drawRows (s.spriteX x) (s.spriteY y) n.toNat s).1 := by
  obtain ⟨-, hreport, -⟩ := drawRows_spec _ _ (spriteX_lt s x) (spriteY_lt s y) s n.toNat (by omega)
  exact hreport.addsErrors

theorem addsErrors_postIncrement {s t : State} (h : AddsErrors s t) (x : Reg) : AddsErrors s (t.postIncrement x) := by
  simpa [AddsErrors] using h

/-- The instructions that access the stack or memory report through the shared operations; the others report nothing. -/
theorem exec_addsErrors {i : Instr} {s t : State} (h : exec i s = .next t) : AddsErrors s t := by
  cases i with
  | ret => cases h; exact addsErrors_returnToCaller s
  | call nnn => cases h; exact addsErrors_callTo _ s
  | drw x y n => cases h; exact addsErrors_drawRows x y n s
  | ldB x =>
    cases h
    exact addsErrors_bcd s (bcdHundreds (s.getV x)) (bcdTens (s.getV x)) (bcdUnits (s.getV x))
  | storeRegs x =>
    cases h
    obtain ⟨-, hreport, -⟩ := storeUpTo_spec (x.val + 1) (by omega) s
    exact addsErrors_postIncrement hreport.addsErrors x
  | loadRegs x =>
    cases h
    obtain ⟨-, hreport, -⟩ := loadUpTo_spec (x.val + 1) (by omega) s
    exact addsErrors_postIncrement hreport.addsErrors x
  | _ =>
    refine addsErrors_of_same (exec_onlyChanges h _ fun hf => ?_)
    simpa [Part.writer, Instr.accessLength] using writer_of_mem_frame _ hf

theorem fetched_addsErrors (r : Option Byte) (s : State) : AddsErrors (beginCycle r s) (fetched r s) := by
  rw [fetched_eq]
  exact (addsErrors_checkAddress _ _).trans (addsErrors_checkAddress _ _)

/-- After a cycle the log holds what it held before and the cycle's own errors (R212). -/
theorem cycle_errLog {r : Option Byte} {s t : State} (h : cycle r s = .next t) :
    t.errLog = s.errLog ||| t.result.err := by
  obtain ⟨u, rfl, hu⟩ := cycle_next_cases h
  have hadds : AddsErrors (fetched r s) u := by
    obtain ⟨i, -, hu⟩ | ⟨-, rfl⟩ := hu
    · exact exec_addsErrors hu
    · exact addsErrors_raise .unknownOpcode (fetched r s)
  obtain ⟨e, hr, hl⟩ := (fetched_addsErrors r s).trans hadds
  simp [hr, hl, CycleResult.blank]

/-! ### The statements -/

/-- An instruction that writes `render_req` sets it (R184). -/
theorem exec_requestsRender {i : Instr} {s t : State} (h : exec i s = .next t) (hi : Part.renderReq.writer s i) :
    t.renderReq = true := by
  obtain rfl | ⟨x, y, n, rfl⟩ := hi <;> cases h <;> rfl

theorem renderReq_of_executes {x : Transaction} {s t : State} {i : Instr} (h : transact x s = .next t)
    (he : Executes x s i) (hi : Part.renderReq.writer s i) : t.renderReq = true := by
  obtain ⟨⟨r, rfl⟩, hd⟩ := he
  obtain ⟨-, h⟩ := whenInited_eq_next.mp h
  obtain ⟨u, rfl, ⟨j, hj, hu⟩ | ⟨⟨op, hop⟩, -⟩⟩ := cycle_next_cases h
  · cases hd.symm.trans hj
    exact exec_requestsRender (t := u) hu hi
  · cases hd.symm.trans hop

/-- The log changes in a cycle only, and by what that cycle's result holds (R212). -/
theorem errLog_changed {x : Transaction} {s t : State} (h : transact x s = .next t) (hinit : x ≠ .init)
    (hlog : t.errLog ≠ s.errLog) : (∃ r, x = .cycle r) ∧ t.result.err ≠ 0 := by
  have hcycle : ∃ r, x = .cycle r := by
    obtain hx | ⟨i, he, -⟩ := hostWriter_or_writer h (p := .errors) fun ⟨_, _, hsame⟩ => hlog hsame
    · exact hx.resolve_left hinit
    · exact he.1
  refine ⟨hcycle, fun herr => hlog ?_⟩
  obtain ⟨r, rfl⟩ := hcycle
  simp [cycle_errLog (whenInited_eq_next.mp h).2, herr]

/-- Settles O21: each row of R40 is what `Part.hostWriter` and `Part.writer` say of its part. -/
theorem eachPieceOfStateHasOnlyItsWriters : Obligations.EachPieceOfStateHasOnlyItsWriters := by
  intro x s t h hinit
  have row {p : Part} (hp : ¬ p.same s t) : p.hostWriter x ∨ ∃ i, Executes x s i ∧ p.writer s i :=
    hostWriter_or_writer h hp
  refine ⟨fun r hv => ?v, fun hi => ?i, fun hpc => ?pc, fun hstack => ?stack, fun hsp => ?sp, fun hdt => ?dt, fun hst => ?st,
    fun hfb => ?fb, fun hkey => ?key, fun hrender => ?render, fun hbeep => ?beep, errLog_changed h hinit, ?params⟩
  case v => simpa [Part.hostWriter, Part.writer, hinit] using row (p := .v r) hv
  case i => simpa [Part.hostWriter, Part.writer, hinit] using row (p := .i) hi
  case pc =>
    obtain hx | ⟨i, he, -⟩ := row (p := .pc) hpc
    · exact hx.resolve_left hinit
    · exact .inl he.1
  case stack =>
    obtain ⟨k, hk⟩ : ∃ k : Fin 16, t.stack[k.val] ≠ s.stack[k.val] :=
      not_forall.mp fun hall => hstack (Vector.ext fun k hlt => hall ⟨k, hlt⟩)
    obtain hx | ⟨i, he, -, nnn, rfl⟩ := row (p := .stack k) hk
    · exact absurd hx hinit
    · exact ⟨nnn, he⟩
  case sp => simpa [Part.hostWriter, Part.writer, hinit, and_or_left, exists_or] using row (p := .sp) hsp
  case dt => simpa [Part.hostWriter, Part.writer, hinit] using row (p := .dt) hdt
  case st => simpa [Part.hostWriter, Part.writer, hinit] using row (p := .st) hst
  case fb => simpa [Part.hostWriter, Part.writer, hinit, and_or_left, exists_or] using row (p := .fb) hfb
  case key => simpa [Part.hostWriter, Part.writer, hinit] using row (p := .key) hkey
  case render =>
    obtain hx | ⟨i, he, hw⟩ := row (p := .renderReq) hrender
    · obtain rfl := hx.resolve_left hinit
      obtain ⟨-, ht⟩ := whenInited_eq_next.mp h
      cases ht
      exact .inr ⟨rfl, rfl⟩
    · refine .inl ⟨renderReq_of_executes h he hw, ?_⟩
      obtain rfl | ⟨a, b, n, rfl⟩ := hw
      · exact .inl he
      · exact .inr ⟨a, b, n, he⟩
  case beep => simpa [Part.hostWriter, Part.writer, hinit] using row (p := .beepReq) hbeep
  case params =>
    by_contra hp
    simpa [Part.hostWriter, Part.writer] using row (p := .params) hp

/-- An occupied slot is in no instruction's frame, and INIT leaves none occupied. -/
theorem transact_keeps_occupied_slot {x : Transaction} {s t : State} (h : transact x s = .next t) {k : Fin 16}
    (hs : k.val < s.sp.val) (ht : k.val < t.sp.val) : t.stack[k.val] = s.stack[k.val] := by
  by_contra hne
  obtain hx | ⟨i, -, hk, -⟩ := hostWriter_or_writer h (p := .stack k) hne
  · cases hx; cases h
    exact Nat.not_lt_zero _ ht
  · omega

/-- Settles O60: taking a transaction from the schedule changes no slot, and performing it keeps the occupied ones. -/
theorem occupiedStackSlotsAreKept : Obligations.OccupiedStackSlotsAreKept := by
  intro s t k a hs ha h ht
  have hsp : (nextTransaction s).2.sp = s.sp := by unfold nextTransaction; split <;> rfl
  have hstack : (nextTransaction s).2.stack = s.stack := by unfold nextTransaction; split <;> rfl
  rw [transact_keeps_occupied_slot h (hsp ▸ hs) ht, hstack, ha]

end Sys2Proof.Machine

/-! PROOFS. The reset state (R38, R243): its invariant and its table. -/

namespace Sys2Proof.Machine

/-- Settles O14: memory is the empty list, and neither the log nor the last result holds an error. -/
theorem resetMeetsTheInvariant : Obligations.ResetMeetsTheInvariant :=
  ⟨Memory.wf_nil, by decide, fun _ => rfl, fun herr => absurd herr (by decide)⟩

/-- Outside the font's 80 bytes INIT leaves zero (R38, R241). -/
theorem resetByte_of_not_font (p : Params) {a : Nat} (h : a < p.fontBase.val ∨ p.fontBase.val + 80 ≤ a) :
    resetByte p a = 0 := by
  unfold resetByte
  split
  · exact List.getD_eq_default _ _ (by simp; omega)
  · rfl

/-- With nothing listed in memory a byte is what INIT leaves there. -/
theorem byteAt_reset {a : Nat} (h : a < 0x1000) : State.reset.byteAt a = resetByte defaultParams a := by
  rw [State.byteAt, mask_eq_mod, Nat.mod_eq_of_lt h]
  rfl

/-- Settles O24: zero outside the font by `resetByte_of_not_font`, the glyphs byte by byte. -/
theorem resetStateIsTheResetTable : Obligations.ResetStateIsTheResetTable := by
  refine ⟨?v, rfl, rfl, ?stack, rfl, rfl, rfl, ?fb, ?key, rfl, rfl, rfl, ?zeros, by decide⟩
  case v => simp [State.getV, State.reset]
  case stack => simp [State.reset]
  case fb => simp [State.reset]
  case key => simp [State.keyDown, State.reset]
  case zeros =>
    intro a ha
    have hlt : a < 0x1000 := by omega
    rw [byteAt_reset hlt]
    exact resetByte_of_not_font defaultParams (by simpa [defaultParams] using (by omega : a < 0x50 ∨ 0xA0 ≤ a))

end Sys2Proof.Machine

/-! PROOFS. Memory (R50 to R66): its canonical form is unique, a masked access reaches one cell and reports, stored bytes are
fetched as code, and only FX33, FX55, INIT and LOAD write it. -/

namespace Sys2Proof.Machine

/-! ### The canonical form -/

namespace Memory

variable {p : Params}

/-- Below its least address a canonical list reads as the reset contents. -/
theorem read_of_lt {lo a : Nat} {m : Memory} (hm : wfFrom p lo m = true) (ha : a < lo) : read p m a = resetByte p a := by
  induction m generalizing lo with
  | nil => rfl
  | cons c m ih =>
    obtain ⟨k, b⟩ := c
    obtain ⟨hlo, -, -, htail⟩ := (wfFrom_cons lo k b m).mp hm
    rw [read, if_neg (by omega), ih htail (by omega)]

/-- At the address it lists first a canonical list does not read as the reset contents. -/
theorem read_head_ne_resetByte {lo k : Nat} {b : Byte} {m : Memory} (hm : wfFrom p lo ((k, b) :: m) = true) :
    read p ((k, b) :: m) k ≠ resetByte p k := by
  obtain ⟨-, -, hb, -⟩ := (wfFrom_cons lo k b m).mp hm
  simpa [read] using hb

/-- Of two canonical lists with equal bytes neither lists its first address before the other does. -/
theorem head_le_head_of_read_eq {lo lo' k k' : Nat} {b b' : Byte} {m m' : Memory}
    (hm : wfFrom p lo ((k, b) :: m) = true) (hm' : wfFrom p lo' ((k', b') :: m') = true)
    (hread : ∀ a, a < memSize → read p ((k, b) :: m) a = read p ((k', b') :: m') a) : k' ≤ k := by
  obtain ⟨-, hk, -, -⟩ := (wfFrom_cons lo k b m).mp hm
  obtain ⟨-, -, -, htail'⟩ := (wfFrom_cons lo' k' b' m').mp hm'
  by_contra hlt
  have hunlisted : read p ((k', b') :: m') k = resetByte p k := by
    rw [read, if_neg (by omega), read_of_lt htail' (by omega)]
  exact read_head_ne_resetByte hm ((hread k hk).trans hunlisted)

/-- A canonical list that reads as the reset contents everywhere lists nothing. -/
theorem eq_nil_of_read_eq {lo : Nat} {m : Memory} (hm : wfFrom p lo m = true)
    (hread : ∀ a, a < memSize → read p m a = resetByte p a) : m = [] := by
  cases m with
  | nil => rfl
  | cons c m =>
    obtain ⟨k, b⟩ := c
    obtain ⟨-, hk, -, -⟩ := (wfFrom_cons lo k b m).mp hm
    exact absurd (hread k hk) (read_head_ne_resetByte hm)

/-- Canonical lists with equal bytes are equal: both list the same address first, with the same byte. -/
theorem eq_of_read_eq {lo lo' : Nat} {m m' : Memory} (hm : wfFrom p lo m = true) (hm' : wfFrom p lo' m' = true)
    (hread : ∀ a, a < memSize → read p m a = read p m' a) : m = m' := by
  induction m generalizing lo lo' m' with
  | nil => exact (eq_nil_of_read_eq hm' fun a ha => (hread a ha).symm).symm
  | cons c m ih =>
    obtain ⟨k, b⟩ := c
    cases m' with
    | nil => exact eq_nil_of_read_eq hm hread
    | cons c' m' =>
      obtain ⟨k', b'⟩ := c'
      have heq : k = k' := Nat.le_antisymm (head_le_head_of_read_eq hm' hm fun a ha => (hread a ha).symm)
        (head_le_head_of_read_eq hm hm' hread)
      subst heq
      obtain ⟨-, hk, -, htail⟩ := (wfFrom_cons lo k b m).mp hm
      obtain ⟨-, -, -, htail'⟩ := (wfFrom_cons lo' k b' m').mp hm'
      have hbyte : b = b' := by simpa [read] using hread k hk
      have hrest : m = m' := ih htail htail' fun a ha => by
        by_cases hak : k = a
        · subst hak
          rw [read_of_lt htail (Nat.lt_succ_self k), read_of_lt htail' (Nat.lt_succ_self k)]
        · simpa [read, hak] using hread a ha
      rw [hbyte, hrest]

end Memory

/-- Settles O18: the canonical form is the one of lists whose addresses start at 0 or above. -/
theorem canonicalMemoriesWithEqualBytesAreEqual : Obligations.CanonicalMemoriesWithEqualBytesAreEqual :=
  fun _ _ _ hm hm' hread => Memory.eq_of_read_eq hm hm' hread

/-! ### One masked access -/

/-- A write reports as the check of its address does (R53). -/
theorem memWrite_reportsRange (a : Nat) (v : Byte) (s : State) : ReportsRange a 1 s (memWrite a v s) :=
  reportsRange_congr (reportsRange_one a s) rfl rfl

/-- Settles O19: what one write and one read do to bytes, to the rest of the state and to the report. -/
theorem maskedWriteThenRead : Obligations.MaskedWriteThenRead := fun a b v s =>
  ⟨byteAt_memWrite a b v s, memWrite_onlyChanges a v s, memWrite_reportsRange a v s,
    (s.byteAt_mod a).symm, checkAddress_onlyChanges a s, reportsRange_one a s⟩

/-! ### Stored bytes as code -/

@[simp] theorem extractLsb'_high_opcodeOfBytes (hi lo : Byte) : (opcodeOfBytes hi lo).extractLsb' 8 8 = hi := by
  apply BitVec.eq_of_toNat_eq
  rw [BitVec.extractLsb'_toNat, opcodeOfBytes_toNat, Nat.shiftRight_eq_div_pow]
  omega

@[simp] theorem extractLsb'_low_opcodeOfBytes (hi lo : Byte) : (opcodeOfBytes hi lo).extractLsb' 0 8 = lo := by
  apply BitVec.eq_of_toNat_eq
  rw [BitVec.extractLsb'_toNat, opcodeOfBytes_toNat, Nat.shiftRight_zero]
  omega

/-- Bytes at addresses that agree modulo 0x1000 are the same byte. -/
theorem State.byteAt_eq_of_mod_eq (s : State) {a b : Nat} (h : a % 0x1000 = b % 0x1000) : s.byteAt a = s.byteAt b := by
  rw [← s.byteAt_mod a, h, s.byteAt_mod b]

/-- After FX55 the byte at I + k is Vk, for each k up to X (R164). -/
theorem byteAt_of_exec_storeRegs {x k : Reg} {s t : State} (h : exec (.storeRegs x) s = .next t) (hk : k ≤ x) :
    t.byteAt (s.i.toNat + k.val) = s.getV k := by
  cases h
  obtain ⟨-, -, hbytes⟩ := storeUpTo_spec (x.val + 1) (by omega) s
  simpa using hbytes k (Nat.lt_succ_of_le hk)

/-- Settles O20: the fetch's high byte is the one at pc and its low byte the one after. -/
theorem storedBytesAreFetched : Obligations.StoredBytesAreFetched := by
  intro x k s t p h hk
  have hbyte : t.byteAt (s.i.toNat + k.val) = s.getV k := byteAt_of_exec_storeRegs h hk
  simp only [fetch_eq, State.opcodeAtPc, State.jumpTo_pc, State.byteAt_jumpTo, extractLsb'_high_opcodeOfBytes,
    extractLsb'_low_opcodeOfBytes]
  exact ⟨fun hp => (t.byteAt_eq_of_mod_eq hp).trans hbyte, fun hp => (t.byteAt_eq_of_mod_eq hp).trans hbyte⟩

/-! ### The writers of memory -/

/-- The cells in an instruction's frame are the ones from I that it stores to (R66, R166). -/
theorem exists_index_of_mem_frame {i : Instr} {s : State} {a : Fin 4096} (h : .mem a ∈ i.frame s) :
    ∃ k, k < i.storeLength ∧ a = cell (s.indexPlus k) := by
  have stored {n : Nat} (hc : .mem a ∈ storedCells s.i.toNat n) : ∃ k, k < n ∧ a = cell (s.indexPlus k) := by
    simpa [storedCells, State.indexPlus, eq_comm] using hc
  cases i with
  | ldB x => exact stored (n := 3) (by simpa [Instr.frame] using h)
  | storeRegs x => exact stored (n := x.val + 1) (by simpa [Instr.frame] using h)
  | _ => simpa [Part.writer, Instr.storeLength] using writer_of_mem_frame _ h

/-- LOAD changes a byte only where it puts an image that fits (R244). -/
theorem load_range_of_byteAt_ne {bytes : List Byte} {s : State} {a : Fin 4096}
    (hne : (loadProgram bytes s).byteAt a.val ≠ s.byteAt a.val) :
    0x200 ≤ a.val ∧ a.val < 0x200 + bytes.length ∧ bytes.length ≤ 3584 := by
  unfold loadProgram at hne
  split at hne
  · exact absurd rfl hne
  · rename_i hfits
    have hlen : bytes.length ≤ 3584 := Nat.le_of_not_lt hfits
    by_contra hout
    refine hne ((byteAt_loadBytes bytes s 0x200 a.val (by omega) a.isLt).trans (dif_neg ?_))
    omega

/-- Settles O22: INIT and LOAD write memory themselves; every other change is in the frame of the instruction executed. -/
theorem memoryIsWrittenOnlyByStoresInitAndLoad : Obligations.MemoryIsWrittenOnlyByStoresInitAndLoad := by
  intro x s t a h hne
  by_cases hx : (Part.mem a).hostWriter x
  · obtain rfl | ⟨bytes, rfl⟩ := hx
    · exact .inl rfl
    · obtain ⟨-, ht⟩ := whenInited_eq_next.mp h
      cases ht
      exact .inr (.inl ⟨bytes, rfl, load_range_of_byteAt_ne hne⟩)
  · obtain ⟨i, he, hmem⟩ : ∃ i, Executes x s i ∧ .mem a ∈ i.frame s := by
      by_contra hno
      exact hne (transact_same_part h hx fun i he hmem => hno ⟨i, he, hmem⟩)
    exact .inr (.inr ⟨i, he, exists_index_of_mem_frame hmem⟩)

end Sys2Proof.Machine

/-! PROOFS. Encoding (R70 to R77): the decoder and the encoder are inverse to each other, UNKNOWN is the last row of R74, and
the fetch and the step carry this to the machine. -/

namespace Sys2Proof

/-! ### Decoding an encoding -/

/-- A word of the layout `f nnn` holds its operand whole. -/
theorem layoutNnn_inj {f : Nibble} {a b : Imm12} : layoutNnn f a = layoutNnn f b ↔ a = b :=
  ⟨fun h => by simpa using congrArg Field.nnn h, congrArg (layoutNnn f)⟩

theorem wellFormed_sys {nnn : Imm12} : (Instr.sys nnn).wellFormed = true ↔ nnn ≠ 0x0E0 ∧ nnn ≠ 0x0EE := by
  simp [Instr.wellFormed]

/-- The words of CLS and RET are the only ones of family 0 that are not SYS (R74 rows 1 to 3). -/
theorem decode_encode_sys {nnn : Imm12} (h : (Instr.sys nnn).wellFormed = true) :
    decode (encode (.sys nnn)) = .instr (.sys nnn) := by
  obtain ⟨hcls, hret⟩ := wellFormed_sys.mp h
  have hcls' : layoutNnn 0x0 nnn ≠ 0x00E0 := fun e => hcls (layoutNnn_inj.mp e)
  have hret' : layoutNnn 0x0 nnn ≠ 0x00EE := fun e => hret (layoutNnn_inj.mp e)
  rw [encode, decode_family0 (f_layoutNnn 0x0 nnn), decodeFamily0, if_neg hcls', if_neg hret', nnn_layoutNnn]

/-- Every layout gives back the fields it was made of, so the families' own tests find each instruction again. -/
theorem decode_encode {i : Instr} (h : i.wellFormed = true) : decode (encode i) = .instr i := by
  cases i with
  | cls | ret => rfl
  | sys nnn => exact decode_encode_sys h
  | jp nnn => simp [encode, decode_family1]
  | call nnn => simp [encode, decode_family2]
  | seByte x nn => simp [encode, decode_family3]
  | sneByte x nn => simp [encode, decode_family4]
  | seReg x y => simp [encode, decode_family5, decodeFamily5]
  | ldByte x nn => simp [encode, decode_family6]
  | addByte x nn => simp [encode, decode_family7]
  | ldReg x y | or x y | and x y | xor x y | addReg x y | sub x y | shr x y | subn x y | shl x y =>
    simp [encode, decode_family8, decodeFamily8]
  | sneReg x y => simp [encode, decode_family9, decodeFamily9]
  | ldI nnn => simp [encode, decode_familyA]
  | jpV0 nnn => simp [encode, decode_familyB]
  | rnd x nn => simp [encode, decode_familyC]
  | drw x y n => simp [encode, decode_familyD]
  | skp x | sknp x => simp [encode, decode_familyE, decodeFamilyE]
  | ldVxDt x | ldVxK x | ldDtVx x | ldStVx x | addI x | ldF x | ldB x | storeRegs x | loadRegs x =>
    simp [encode, decode_familyF, decodeFamilyF]

/-- Settles O1, by the case split on the instruction in `decode_encode`. -/
theorem decodeOfEncodeIsTheInstruction : Obligations.DecodeOfEncodeIsTheInstruction := fun _ h => decode_encode h

/-! ### Encoding what was decoded -/

/-- A decoder's answer to `op` stands for `op`: a well-formed instruction encoded by it, or UNKNOWN carrying it. -/
def Decoded.StandsFor (op : Word) : Decoded → Prop
  | .instr i => i.wellFormed = true ∧ encode i = op
  | .unknown op' => op' = op

section
variable {op : Word} {f : Nibble}

theorem layoutNnn_of_f (hf : Field.f op = f) : layoutNnn f (Field.nnn op) = op := hf ▸ layoutNnn_fields op

theorem layoutXnn_of_f (hf : Field.f op = f) : layoutXnn f (Field.x op) (Field.nn op) = op := hf ▸ layoutXnn_fields op

theorem layoutXyn_of_f (hf : Field.f op = f) : layoutXyn f (Field.x op) (Field.y op) (Field.n op) = op :=
  hf ▸ layoutXyn_fields op

theorem layoutXnn_of_f_nn {nn : Byte} (hf : Field.f op = f) (hnn : Field.nn op = nn) : layoutXnn f (Field.x op) nn = op :=
  hnn ▸ layoutXnn_of_f hf

theorem layoutXyn_of_f_n {n : Nibble} (hf : Field.f op = f) (hn : Field.n op = n) :
    layoutXyn f (Field.x op) (Field.y op) n = op := hn ▸ layoutXyn_of_f hf

/-- SYS is decoded where the operand is not that of CLS or RET, so it is well-formed. -/
theorem decodeFamily0_standsFor (hf : Field.f op = 0x0) : (decodeFamily0 op).StandsFor op := by
  have hop : layoutNnn 0x0 (Field.nnn op) = op := layoutNnn_of_f hf
  unfold decodeFamily0
  split_ifs with hcls hret
  · exact ⟨rfl, hcls.symm⟩
  · exact ⟨rfl, hret.symm⟩
  · have hcls' : Field.nnn op ≠ 0x0E0 := fun e => hcls (by rw [← hop, e]; rfl)
    have hret' : Field.nnn op ≠ 0x0EE := fun e => hret (by rw [← hop, e]; rfl)
    exact ⟨wellFormed_sys.mpr ⟨hcls', hret'⟩, hop⟩

theorem decodeFamily5_standsFor (hf : Field.f op = 0x5) : (decodeFamily5 op).StandsFor op := by
  unfold decodeFamily5
  split
  case isTrue hn => exact ⟨rfl, layoutXyn_of_f_n hf hn⟩
  case isFalse => rfl

theorem decodeFamily8_standsFor (hf : Field.f op = 0x8) : (decodeFamily8 op).StandsFor op := by
  unfold decodeFamily8
  split_ifs
  case neg => rfl
  all_goals exact ⟨rfl, layoutXyn_of_f_n hf ‹_›⟩

theorem decodeFamily9_standsFor (hf : Field.f op = 0x9) : (decodeFamily9 op).StandsFor op := by
  unfold decodeFamily9
  split
  case isTrue hn => exact ⟨rfl, layoutXyn_of_f_n hf hn⟩
  case isFalse => rfl

theorem decodeFamilyE_standsFor (hf : Field.f op = 0xE) : (decodeFamilyE op).StandsFor op := by
  unfold decodeFamilyE
  split_ifs
  case neg => rfl
  all_goals exact ⟨rfl, layoutXnn_of_f_nn hf ‹_›⟩

theorem decodeFamilyF_standsFor (hf : Field.f op = 0xF) : (decodeFamilyF op).StandsFor op := by
  unfold decodeFamilyF
  split_ifs
  case neg => rfl
  all_goals exact ⟨rfl, layoutXnn_of_f_nn hf ‹_›⟩

end

/-- The fields a family hands on are the ones its layout puts together again. -/
theorem decode_standsFor (op : Word) : (decode op).StandsFor op := by
  obtain hf | hf | hf | hf | hf | hf | hf | hf | hf | hf | hf | hf | hf | hf | hf | hf := Field.f_cases op
  · rw [decode_family0 hf]; exact decodeFamily0_standsFor hf
  · rw [decode_family1 hf]; exact ⟨rfl, layoutNnn_of_f hf⟩
  · rw [decode_family2 hf]; exact ⟨rfl, layoutNnn_of_f hf⟩
  · rw [decode_family3 hf]; exact ⟨rfl, layoutXnn_of_f hf⟩
  · rw [decode_family4 hf]; exact ⟨rfl, layoutXnn_of_f hf⟩
  · rw [decode_family5 hf]; exact decodeFamily5_standsFor hf
  · rw [decode_family6 hf]; exact ⟨rfl, layoutXnn_of_f hf⟩
  · rw [decode_family7 hf]; exact ⟨rfl, layoutXnn_of_f hf⟩
  · rw [decode_family8 hf]; exact decodeFamily8_standsFor hf
  · rw [decode_family9 hf]; exact decodeFamily9_standsFor hf
  · rw [decode_familyA hf]; exact ⟨rfl, layoutNnn_of_f hf⟩
  · rw [decode_familyB hf]; exact ⟨rfl, layoutNnn_of_f hf⟩
  · rw [decode_familyC hf]; exact ⟨rfl, layoutXnn_of_f hf⟩
  · rw [decode_familyD hf]; exact ⟨rfl, layoutXyn_of_f hf⟩
  · rw [decode_familyE hf]; exact decodeFamilyE_standsFor hf
  · rw [decode_familyF hf]; exact decodeFamilyF_standsFor hf

/-- Settles O2: the instruction case of `decode_standsFor`. -/
theorem encodeOfDecodedIsTheWord : Obligations.EncodeOfDecodedIsTheWord := by
  intro op i h
  have hi := decode_standsFor op
  rw [h] at hi
  exact hi

/-! ### UNKNOWN

A family answers UNKNOWN exactly where all its tests fail. -/

theorem exists_instr_or_unknown (op : Word) : (∃ i, decode op = .instr i) ∨ decode op = .unknown op := by
  have h := decode_standsFor op
  cases hd : decode op with
  | instr i => exact .inl ⟨i, rfl⟩
  | unknown op' => rw [hd] at h; exact .inr (congrArg Decoded.unknown h)

theorem decodeFamily0_ne_unknown (op : Word) : decodeFamily0 op ≠ .unknown op := by
  unfold decodeFamily0
  split_ifs <;> simp

theorem decodeFamily5_eq_unknown {op : Word} : decodeFamily5 op = .unknown op ↔ op.toNat % 0x10 ≠ 0 := by
  rw [← Field.n_toNat]
  unfold decodeFamily5
  split_ifs <;> simp_all [BitVec.toNat_eq]

/-- The seven unused nibbles of family 8 are what its nine tests leave (R144). -/
theorem mem_unused8_iff {n : Nibble} :
    n.toNat ∈ [0x8, 0x9, 0xA, 0xB, 0xC, 0xD, 0xF] ↔
      n ≠ 0x0 ∧ n ≠ 0x1 ∧ n ≠ 0x2 ∧ n ≠ 0x3 ∧ n ≠ 0x4 ∧ n ≠ 0x5 ∧ n ≠ 0x6 ∧ n ≠ 0x7 ∧ n ≠ 0xE := by
  revert n
  decide

theorem decodeFamily8_eq_unknown {op : Word} :
    decodeFamily8 op = .unknown op ↔ op.toNat % 0x10 ∈ [0x8, 0x9, 0xA, 0xB, 0xC, 0xD, 0xF] := by
  rw [← Field.n_toNat, mem_unused8_iff]
  unfold decodeFamily8
  split_ifs <;> simp_all

theorem decodeFamily9_eq_unknown {op : Word} : decodeFamily9 op = .unknown op ↔ op.toNat % 0x10 ≠ 0 := by
  rw [← Field.n_toNat]
  unfold decodeFamily9
  split_ifs <;> simp_all [BitVec.toNat_eq]

theorem decodeFamilyE_eq_unknown {op : Word} : decodeFamilyE op = .unknown op ↔ op.toNat % 0x100 ∉ [0x9E, 0xA1] := by
  rw [← Field.nn_toNat]
  unfold decodeFamilyE
  split_ifs <;> simp_all [BitVec.toNat_eq]

theorem decodeFamilyF_eq_unknown {op : Word} :
    decodeFamilyF op = .unknown op ↔
      op.toNat % 0x100 ∉ [0x07, 0x0A, 0x15, 0x18, 0x1E, 0x29, 0x33, 0x55, 0x65] := by
  rw [← Field.nn_toNat]
  unfold decodeFamilyF
  split_ifs <;> simp_all [BitVec.toNat_eq]

/-- Settles O3, family by family: only 5, 8, 9, E and F have words that are no instruction. -/
theorem unknownOpcodesAreExactlyTheListed : Obligations.UnknownOpcodesAreExactlyTheListed := by
  intro op
  refine ⟨exists_instr_or_unknown op, ?_⟩
  rw [← Field.f_toNat]
  obtain hf | hf | hf | hf | hf | hf | hf | hf | hf | hf | hf | hf | hf | hf | hf | hf := Field.f_cases op
  · simp [decode_family0 hf, hf, decodeFamily0_ne_unknown]
  · simp [decode_family1 hf, hf]
  · simp [decode_family2 hf, hf]
  · simp [decode_family3 hf, hf]
  · simp [decode_family4 hf, hf]
  · simp [decode_family5 hf, hf, decodeFamily5_eq_unknown]
  · simp [decode_family6 hf, hf]
  · simp [decode_family7 hf, hf]
  · simp [decode_family8 hf, hf, decodeFamily8_eq_unknown]
  · simp [decode_family9 hf, hf, decodeFamily9_eq_unknown]
  · simp [decode_familyA hf, hf]
  · simp [decode_familyB hf, hf]
  · simp [decode_familyC hf, hf]
  · simp [decode_familyD hf, hf]
  · simp [decode_familyE hf, hf, decodeFamilyE_eq_unknown]
  · simp [decode_familyF hf, hf, decodeFamilyF_eq_unknown]

/-! ### Fields and sample words -/

/-- Settles O4: each field as a number. -/
theorem fieldsAreTheOpcodeBits : Obligations.FieldsAreTheOpcodeBits := fun op =>
  ⟨Field.f_toNat op, Field.x_val op, Field.y_val op, Field.n_toNat op, Field.nn_toNat op, Field.nnn_toNat op⟩

/-- Settles O5: the decoder runs on nine words. -/
theorem sampleWordsDecode : Obligations.SampleWordsDecode :=
  ⟨rfl, rfl, rfl, rfl, rfl, rfl, rfl, rfl, rfl⟩

end Sys2Proof

namespace Sys2Proof.Machine

/-! ### The fetch -/

/-- The fetch's two checks are one report of two accesses (R72). -/
theorem fetch_reportsRange (s : State) : ReportsRange s.pc.toNat 2 s (fetch s).2 := by
  rw [fetch_eq]
  exact reportsRange_succ (reportsRange_one s.pc.toNat s) rfl rfl

theorem fetch_onlyChanges (s : State) : OnlyChanges s (fetch s).2 [.errors] := by
  rw [fetch_eq]
  exact onlyChanges_trans (checkAddress_onlyChanges _ s) (checkAddress_onlyChanges _ _)

theorem fetch_fst_toNat (s : State) :
    (fetch s).1.toNat = 0x100 * (s.byteAt s.pc.toNat).toNat + (s.byteAt (s.pc.toNat + 1)).toNat := by
  rw [fetch_eq]
  exact opcodeOfBytes_toNat _ _

/-- Settles O9: at pc = 0xFFF the second address is 0x1000, which is masked to 0. -/
theorem fetchIsBigEndianMaskedAndReported : Obligations.FetchIsBigEndianMaskedAndReported := by
  refine fun s => ⟨fetch_fst_toNat s, fun a => (s.byteAt_mod a).symm, fun hpc => ?_, fetch_reportsRange s,
    fetch_onlyChanges s⟩
  rw [fetch_fst_toNat, hpc]
  rfl

/-! ### UNKNOWN executed -/

/-- Settles O7: UNKNOWN is `raise` and `advance`. -/
theorem unknownOpcodeIsReportedAndSteppedOver : Obligations.UnknownOpcodeIsReportedAndSteppedOver := by
  intro op s h
  rw [h]
  exact ⟨(raise .unknownOpcode s).advance, rfl, rfl, (raise_reports .unknownOpcode s).1,
    ((onlyChanges_refl s []).raise .unknownOpcode).advance⟩

/-! ### The step -/

/-- With no transaction issued the rest of the schedule is as empty as before (R247). -/
theorem nextTransaction_snd (s : State) : (nextTransaction s).2 = { s with pending := s.pending.tail } := by
  unfold nextTransaction
  split
  next hnone => rw [hnone, List.tail_nil, ← hnone]
  next hcons => rw [hcons, List.tail_cons]

@[simp] theorem nextTransaction_pending (s : State) : (nextTransaction s).2.pending = s.pending.tail := by
  rw [nextTransaction_snd]

@[simp] theorem nextTransaction_pc (s : State) : (nextTransaction s).2.pc = s.pc := by
  rw [nextTransaction_snd]

@[simp] theorem nextTransaction_errLog (s : State) : (nextTransaction s).2.errLog = s.errLog := by
  rw [nextTransaction_snd]

@[simp] theorem opcodeAtPc_nextTransaction (s : State) : (nextTransaction s).2.opcodeAtPc = s.opcodeAtPc := by
  rw [nextTransaction_snd]
  rfl

theorem nextTransaction_onlyChanges (s : State) : OnlyChanges s (nextTransaction s).2 [.pending] := by
  rw [nextTransaction_snd]
  intro p hp
  cases p <;> simp [Part.same] at hp ⊢ <;> rfl

theorem step_of_cycle {s : State} {r : Option Byte} (hi : s.inited = true) (hx : (nextTransaction s).1 = .cycle r) :
    step s = mapNext endCycle (execDecoded (decode s.opcodeAtPc) (fetched r (nextTransaction s).2)) := by
  rw [step, hostStep, hx, transact, whenInited, if_pos ((nextTransaction_inited s).trans hi), cycle_eq,
    opcodeAtPc_nextTransaction]

/-! ### The record a cycle starts with (R76, R211) -/

@[simp] theorem fetched_pending (r : Option Byte) (s : State) : (fetched r s).pending = s.pending := by
  simp [fetched_eq]

@[simp] theorem fetched_randomIn (r : Option Byte) (s : State) : (fetched r s).randomIn = r := by simp [fetched_eq]

@[simp] theorem fetched_pcAt (r : Option Byte) (s : State) : (fetched r s).result.pcAt = s.pc := by simp [fetched_eq]

@[simp] theorem fetched_op (r : Option Byte) (s : State) : (fetched r s).result.op = s.opcodeAtPc := by
  simp [fetched_eq]

@[simp] theorem fetched_waiting (r : Option Byte) (s : State) : (fetched r s).result.waiting = false := by
  simp [fetched_eq, CycleResult.blank]

/-- The fetch's second address is above 0xFFF from pc = 0xFFF on (R72). -/
theorem fetched_err (r : Option Byte) (s : State) :
    (fetched r s).result.err = if s.pc.toNat ≥ 0xFFF then 8#4 else 0#4 := by
  have hreport := fetch_reportsRange (beginCycle r s)
  have hbound : (0 < 2 ∧ s.pc.toNat + (2 - 1) > 0xFFF) ↔ s.pc.toNat ≥ 0xFFF := by omega
  rw [ReportsRange, beginCycle_pc, if_congr hbound rfl rfl] at hreport
  change (fetch (beginCycle r s)).2.result.err = _
  by_cases hpc : s.pc.toNat ≥ 0xFFF
  · rw [if_pos hpc] at hreport
    obtain ⟨herr, -, -⟩ := hreport
    simpa [hpc, CycleResult.blank] using herr
  · rw [if_neg hpc] at hreport
    obtain ⟨herr, -, -⟩ := hreport
    simpa [hpc, CycleResult.blank] using herr

/-- A cycle starts from an empty record, so the fetch adds to the log what the record then holds (R212). -/
theorem fetched_errLog (r : Option Byte) (s : State) :
    (fetched r s).errLog = s.errLog ||| (fetched r s).result.err := by
  obtain ⟨e, herr, hlog⟩ := fetched_addsErrors r s
  simp [herr, hlog, CycleResult.blank]

/-- Settles O6: the instruction executes in `fetched`, from the state without the transaction taken. -/
theorem stepRunsTheFetchedInstruction : Obligations.StepRunsTheFetchedInstruction := by
  intro s r hi hx
  refine ⟨fetched r (nextTransaction s).2, fun i hd => ?instr, fun op hd => ?unknown, ?pending, ?randomIn, ?pcAt, ?op,
    ?waiting, ?err, ?errLog, ?frame⟩
  case instr => rw [step_of_cycle hi hx, hd, execDecoded]
  case unknown => rw [step_of_cycle hi hx, hd, execDecoded]
  case err => rw [fetched_err, nextTransaction_pc]
  case errLog => rw [fetched_errLog, nextTransaction_errLog]
  case frame => exact onlyChanges_mono ((nextTransaction_onlyChanges s).append (fetched_onlyChanges r _)) (by simp)
  all_goals simp

end Sys2Proof.Machine

/-! PROOFS. Control flow (R100 to R110): what each jump, skip, CALL and RET leaves, the words that stand for them, and a CALL with
its matching RET over any run inside the call. -/

namespace Sys2Proof

/-! ### The word of an instruction, by its number -/

/-- The word whose number is that of an instruction's encoding decodes to the instruction (R71, R74). -/
theorem decode_ofNat {i : Instr} {n : Nat} (hi : i.wellFormed = true) (hn : (encode i).toNat = n) :
    decode (BitVec.ofNat 16 n) = .instr i := by
  rw [← hn, BitVec.ofNat_toNat, BitVec.setWidth_eq]
  exact decode_encode hi

theorem toNat_zext16 {n : Nat} (h : n ≤ 16) (v : BitVec n) : (zext16 v).toNat = v.toNat :=
  BitVec.toNat_setWidth_of_le h

/-- The words `5XYn` and `9XYn` with n nonzero are among the UNKNOWN ones of R74's last row. -/
theorem decode_unknown_of_nonzero_n {f x y n : Nat} {w : Word} (hf : f = 5 ∨ f = 9) (hx : x < 16) (hy : y < 16)
    (hn : 0 < n ∧ n < 16) (hw : w.toNat = 0x1000 * f + 0x100 * x + 0x10 * y + n) : decode w = .unknown w :=
  (unknownOpcodesAreExactlyTheListed w).2.mpr (.inl (by omega))

end Sys2Proof

namespace Sys2Proof.Machine

/-! ### Jumps and skips -/

/-- Settles O31: SYS is `advance`. -/
theorem sysOnlyAdvances : Obligations.SysOnlyAdvances := fun nnn s =>
  ⟨fun hcls hret => decode_ofNat (wellFormed_sys.mpr ⟨hcls, hret⟩) (by simp [encode]),
    s.advance, rfl, rfl, exec_onlyChanges (i := .sys nnn) rfl⟩

/-- Settles O33: JP is `jumpTo`, and NNN is the same number as a word. -/
theorem jpSetsPc : Obligations.JpSetsPc := fun nnn s =>
  ⟨decode_ofNat rfl (by simp [encode]),
    s.jumpTo (zext16 nnn), rfl, toNat_zext16 (by decide) nnn, exec_onlyChanges (i := .jp nnn) rfl⟩

theorem State.jumpBase_of_not_jumpVx {s : State} (h : s.params.jumpVx = false) (nnn : Imm12) : s.jumpBase nnn = 0 := by
  simp [State.jumpBase, h]

theorem State.jumpBase_of_jumpVx {s : State} {nnn : Imm12} {x : Reg} (h : s.params.jumpVx = true)
    (hx : x.val = nnn.toNat / 0x100) : s.jumpBase nnn = x := by
  apply Fin.ext
  have hnnn := nnn.isLt
  simp [State.jumpBase, h, BitVec.extractLsb'_toNat, Nat.shiftRight_eq_div_pow]
  omega

/-- A 12-bit and an 8-bit number have a sum below 2^16 (R104). -/
theorem toNat_zext16_add_zext16 (nnn : Imm12) (b : Byte) : (zext16 nnn + zext16 b).toNat = nnn.toNat + b.toNat := by
  rw [BitVec.toNat_add, toNat_zext16 (by decide), toNat_zext16 (by decide)]
  omega

/-- Settles O35: BNNN is `jumpTo` the sum, of the register that JUMP_VX selects. -/
theorem jpV0AddsARegister : Obligations.JpV0AddsARegister := by
  intro nnn s
  have hpc := toNat_zext16_add_zext16 nnn (s.getV (s.jumpBase nnn))
  refine ⟨decode_ofNat rfl (by simp [encode]), s.jumpTo (zext16 nnn + zext16 (s.getV (s.jumpBase nnn))), rfl,
    fun hfixed => ?_, fun x hvx hx => ?_, exec_onlyChanges (i := .jpV0 nnn) rfl⟩
  · rw [State.jumpBase_of_not_jumpVx hfixed] at hpc ⊢
    exact hpc
  · rw [State.jumpBase_of_jumpVx hvx hx] at hpc ⊢
    exact hpc

/-- An instruction that executes as a skip on the condition `p` moves pc by 4 or 2 and changes nothing else (R15). -/
theorem exists_next_of_exec_skipIf {i : Instr} {s : State} {c : Bool} {p : Prop} [Decidable p]
    (h : exec i s = .next (s.skipIf c)) (hc : c = true ↔ p) :
    ∃ t, exec i s = .next t ∧ t.pc = (if p then s.pc + 4 else s.pc + 2) ∧ OnlyChanges s t [.pc] := by
  refine ⟨s.skipIf c, h, ?_, (onlyChanges_refl s []).skipIf c⟩
  rw [State.skipIf_pc, ← apply_ite (s.pc + ·), if_congr hc rfl rfl]

/-- Settles O36: the skips of 3XNN and 4XNN, on `==` and on `!=`. -/
theorem skipsOnImmediate : Obligations.SkipsOnImmediate := fun x nn s =>
  ⟨decode_ofNat rfl (by simp [encode]), decode_ofNat rfl (by simp [encode]),
    exists_next_of_exec_skipIf (i := .seByte x nn) rfl beq_iff_eq,
    exists_next_of_exec_skipIf (i := .sneByte x nn) rfl bne_iff_ne⟩

/-- Settles O37: the skips of 5XY0 and 9XY0, on `==` and on `!=`, and UNKNOWN where their low nibble is not 0. -/
theorem skipsOnRegister : Obligations.SkipsOnRegister := by
  intro x y s
  refine ⟨decode_ofNat rfl (by simp [encode]), decode_ofNat rfl (by simp [encode]), fun n w hn hw => ?_,
    exists_next_of_exec_skipIf (i := .seReg x y) rfl beq_iff_eq,
    exists_next_of_exec_skipIf (i := .sneReg x y) rfl bne_iff_ne⟩
  have hpos : 0 < n.toNat := Nat.pos_of_ne_zero fun e => hn (BitVec.eq_of_toNat_eq e)
  obtain rfl | rfl := hw
  · exact decode_unknown_of_nonzero_n (.inl rfl) x.isLt y.isLt ⟨hpos, n.isLt⟩ (by simp; omega)
  · exact decode_unknown_of_nonzero_n (.inr rfl) x.isLt y.isLt ⟨hpos, n.isLt⟩ (by simp; omega)

/-! ### CALL and RET executed -/

theorem frame_call_of_free (nnn : Imm12) {s : State} {k : Fin 16} (h : s.sp.val = k.val) :
    (Instr.call nnn).frame s = [.pc, .sp, .stack k] := by
  have hslot : Fin.ofNat 16 s.sp.val = k := by rw [h]; exact Fin.ext (Nat.mod_eq_of_lt k.isLt)
  rw [Instr.frame, if_pos (h ▸ k.isLt), hslot]

theorem frame_ret_of_pos {s : State} (h : 0 < s.sp.val) : Instr.ret.frame s = [.pc, .sp] := by
  rw [Instr.frame, if_neg fun e => Nat.ne_of_gt h (congrArg Fin.val e)]

theorem exec_call_of_free (nnn : Imm12) {s : State} {k : Fin 16} (h : s.sp.val = k.val) :
    ∃ t, exec (.call nnn) s = .next t ∧ t.stack[k.val] = s.pc + 2 ∧ t.sp.val = k.val + 1 ∧
      t.pc.toNat = nnn.toNat ∧ OnlyChanges s t [.stack k, .sp, .pc] := by
  have hcall : exec (.call nnn) s = .next (callTo (zext16 nnn) s) := rfl
  have hframe := exec_onlyChanges hcall
  rw [frame_call_of_free nnn h] at hframe
  refine ⟨callTo (zext16 nnn) s, hcall, ?slot, ?sp, ?pc, onlyChanges_mono hframe (by simp)⟩
  all_goals rw [callTo_of_lt _ s (h ▸ k.isLt)]
  case slot => simp [h]
  case sp => exact congrArg (· + 1) h
  case pc => exact toNat_zext16 (by decide) nnn

theorem exec_call_of_full (nnn : Imm12) {s : State} (h : s.sp = 16) :
    exec (.call nnn) s = .next (raise .stackOverflow s).advance := congrArg Host.Outcome.next (callTo_of_full _ s h)

/-- Settles O34: CALL with a free slot, and with a full stack. -/
theorem callPushesOrReportsOverflow : Obligations.CallPushesOrReportsOverflow := fun nnn s =>
  ⟨decode_ofNat rfl (by simp [encode]),
    fun hfull => ⟨_, exec_call_of_full nnn hfull, rfl, (raise_reports .stackOverflow s).1,
      ((onlyChanges_refl s []).raise .stackOverflow).advance⟩,
    fun _ hk => exec_call_of_free nnn hk⟩

theorem exec_ret_of_pos {s : State} {k : Fin 16} (h : s.sp.val = k.val + 1) :
    ∃ t, exec .ret s = .next t ∧ t.sp.val = k.val ∧ t.pc = s.stack[k.val] ∧ OnlyChanges s t [.sp, .pc] := by
  have hret : exec .ret s = .next (returnToCaller s) := rfl
  have hframe := exec_onlyChanges hret
  rw [frame_ret_of_pos (by omega)] at hframe
  refine ⟨returnToCaller s, hret, ?sp, ?pc, onlyChanges_mono hframe (by simp)⟩
  all_goals rw [returnToCaller_of_pos s k h]

theorem exec_ret_of_empty {s : State} (h : s.sp = 0) : exec .ret s = .next (raise .stackUnderflow s).advance :=
  congrArg Host.Outcome.next (returnToCaller_of_empty s h)

/-- Settles O32: RET with an empty stack, and with an occupied slot. -/
theorem retPopsOrReportsUnderflow : Obligations.RetPopsOrReportsUnderflow :=
  ⟨rfl, fun s =>
    ⟨fun hempty => ⟨_, exec_ret_of_empty hempty, rfl, (raise_reports .stackUnderflow s).1,
      ((onlyChanges_refl s []).raise .stackUnderflow).advance⟩,
    fun _ hk => exec_ret_of_pos hk⟩⟩

/-! ### A run inside a call (R110) -/

theorem Inside.le_sp {b : Nat} {s t : State} (h : Inside b s t) : b ≤ t.sp.val := by
  cases h <;> assumption

/-- Over a run that never falls below `b` occupied slots the slots below `b` keep their content. -/
theorem Inside.stack_eq {b : Nat} {s t : State} (h : Inside b s t) {k : Fin 16} (hk : k.val < b) :
    t.stack[k.val] = s.stack[k.val] := by
  induction h with
  | refl => rfl
  | tail t u hin hstep hu ih =>
    exact occupiedStackSlotsAreKept t u k _ (Nat.lt_of_lt_of_le hk hin.le_sp) ih hstep (Nat.lt_of_lt_of_le hk hu)

/-- A step that executes `i` executes it in a state with the same pc, stack and registers as before (R76). -/
theorem step_of_nextExecutes {s : State} {i : Instr} (h : NextExecutes s i) :
    ∃ b, step s = mapNext endCycle (exec i b) ∧ OnlyChanges s b [.pending, .randomIn, .record, .waiting, .errors] := by
  obtain ⟨hinit, ⟨r, hx⟩, hd⟩ := h
  obtain ⟨b, hb, -, -, -, -, -, -, -, -, hframe⟩ := stepRunsTheFetchedInstruction s r hinit hx
  exact ⟨b, hb i hd, hframe⟩

theorem step_call {s t : State} {nnn : Imm12} {k : Fin 16} (hn : NextExecutes s (.call nnn)) (hk : s.sp.val = k.val)
    (h : step s = .next t) : t.sp.val = k.val + 1 ∧ t.stack[k.val] = s.pc + 2 := by
  obtain ⟨b, hb, hframe⟩ := step_of_nextExecutes hn
  have hpc : b.pc = s.pc := hframe .pc (by simp)
  have hsp : b.sp = s.sp := hframe .sp (by simp)
  obtain ⟨u, hu, hslot, husp, -, -⟩ := exec_call_of_free nnn (hsp ▸ hk)
  rw [hb, hu] at h
  cases h
  exact ⟨husp, hpc ▸ hslot⟩

theorem step_ret {s : State} {k : Fin 16} (hn : NextExecutes s .ret) (hk : s.sp.val = k.val + 1) :
    ∃ t, step s = .next t ∧ t.sp.val = k.val ∧ t.pc = s.stack[k.val] := by
  obtain ⟨b, hb, hframe⟩ := step_of_nextExecutes hn
  have hsp : b.sp = s.sp := hframe .sp (by simp)
  have hslot : b.stack[k.val] = s.stack[k.val] := hframe (.stack k) (by simp)
  obtain ⟨t, ht, htsp, htpc, -⟩ := exec_ret_of_pos (hsp ▸ hk)
  exact ⟨endCycle t, by rw [hb, ht, mapNext], htsp, htpc.trans hslot⟩

/-- Settles O39: CALL writes the slot at sp, the run inside the call keeps it, and RET at that height reads it. -/
theorem callThenMatchingReturn : Obligations.CallThenMatchingReturn := by
  intro s t u nnn hcall hfree hstep hin hsp hret
  obtain ⟨k, hk⟩ : ∃ k : Fin 16, s.sp.val = k.val := ⟨⟨s.sp.val, hfree⟩, rfl⟩
  obtain ⟨htsp, hslot⟩ := step_call hcall hk hstep
  have hkept : u.stack[k.val] = t.stack[k.val] := hin.stack_eq (by omega)
  obtain ⟨w, hw, hwsp, hwpc⟩ := step_ret hret (hsp ▸ htsp)
  exact ⟨w, hw, hwpc.trans (hkept.trans hslot), Fin.ext (hwsp.trans hk.symm)⟩

end Sys2Proof.Machine

/-! PROOFS. Registers and ALU (R130 to R144): what a register write, with or without a flag after it, leaves of the state, and
each instruction's result and flag as numbers. -/

namespace Sys2Proof.Machine

/-! ### A register write, then the flag -/

/-- An instruction that executes as one register write leaves the value there, VF too (R131 to R133). -/
theorem exists_next_of_exec_setV {i : Instr} {s : State} {x : Reg} {b : Byte}
    (h : exec i s = .next (s.setV x b).advance) :
    ∃ t, exec i s = .next t ∧ t.getV x = b ∧ t.pc = s.pc + 2 ∧ OnlyChanges s t [.v x, .pc] :=
  ⟨_, h, by simp, rfl, onlyChanges_mono ((onlyChanges_refl s []).setV x b).advance (by simp)⟩

/-- An instruction that writes VF after its result leaves the flag in VF, and the result where X is not F (R143). -/
theorem exists_next_of_exec_setFlag {i : Instr} {s : State} {x : Reg} {b : Byte} {c : Bool}
    (h : exec i s = .next ((s.setV x b).setFlag c).advance) :
    ∃ t, exec i s = .next t ∧ t.pc = s.pc + 2 ∧ (x ≠ 15 → t.getV x = b) ∧ t.getV 15 = flagByte c ∧
      OnlyChanges s t [.v x, .v 15, .pc] := by
  refine ⟨_, h, rfl, fun hx => ?result, ?flag,
    onlyChanges_mono (((onlyChanges_refl s []).setV x b).setFlag c).advance (by simp)⟩
  case result => simp [State.getV_setFlag, hx]
  case flag => simp [State.getV_setFlag]

/-- An instruction that writes its result and then its flag, both given as numbers. -/
theorem exists_next_of_exec_setFlag_toNat {i : Instr} {s : State} {x : Reg} {b : Byte} {c : Bool} {n f : Nat}
    (h : exec i s = .next ((s.setV x b).setFlag c).advance) (hb : b.toNat = n) (hc : (flagByte c).toNat = f) :
    ∃ t, exec i s = .next t ∧ t.pc = s.pc + 2 ∧ (x ≠ 15 → (t.getV x).toNat = n) ∧ (t.getV 15).toNat = f ∧
      OnlyChanges s t [.v x, .v 15, .pc] := by
  obtain ⟨t, ht, hpc, hx, hflag, hframe⟩ := exists_next_of_exec_setFlag h
  exact ⟨t, ht, hpc, fun hne => by rw [hx hne, hb], by rw [hflag, hc], hframe⟩

/-- An instruction that ends in `logicFlag` is a plain register write, or one with VF cleared after it (R134 to R136). -/
theorem exists_next_of_exec_logicFlag {i : Instr} {s : State} {x : Reg} {b : Byte}
    (h : exec i s = .next (s.setV x b).logicFlag.advance) :
    ∃ t, exec i s = .next t ∧ t.pc = s.pc + 2 ∧
      (s.params.logicVfReset = false → t.getV x = b ∧ OnlyChanges s t [.v x, .pc]) ∧
      (s.params.logicVfReset = true → (x ≠ 15 → t.getV x = b) ∧ t.getV 15 = 0 ∧ OnlyChanges s t [.v x, .v 15, .pc]) := by
  cases hp : s.params.logicVfReset with
  | false =>
    have hplain : exec i s = .next (s.setV x b).advance := by simpa [State.logicFlag, hp] using h
    obtain ⟨t, ht, hx, hpc, hframe⟩ := exists_next_of_exec_setV hplain
    exact ⟨t, ht, hpc, fun _ => ⟨hx, hframe⟩, nofun⟩
  | true =>
    have hflag : exec i s = .next ((s.setV x b).setFlag false).advance := by simpa [State.logicFlag, hp] using h
    obtain ⟨t, ht, hpc, hspec⟩ := exists_next_of_exec_setFlag hflag
    exact ⟨t, ht, hpc, nofun, fun _ => hspec⟩

/-! ### Results and flags as numbers -/

/-- A flag that says whether `p` holds. -/
theorem flagByte_decide (p : Prop) [Decidable p] : flagByte (decide p) = if p then 1 else 0 := by
  simp [flagByte]

/-- The difference modulo 256 (R138, R140). -/
theorem toNat_sub_eq_emod (a b : Byte) : ((a - b).toNat : Int) = ((a.toNat : Int) - b.toNat) % 256 := by
  rw [BitVec.toNat_sub]
  omega

/-- A flag that says whether a number below 2 is 1 is that number. -/
theorem toNat_flagByte_decide_eq_one {n : Nat} (h : n < 2) : (flagByte (decide (n = 1))).toNat = n := by
  obtain rfl | rfl : n = 0 ∨ n = 1 := by omega
  · rfl
  · rfl

/-- The bit shifted out to the right is the remainder by 2 (R139). -/
theorem toNat_flagByte_shrOut (b : Byte) : (flagByte (shrOut b)).toNat = b.toNat % 2 := by
  rw [shrOut, BitVec.getLsbD, Nat.testBit_zero, toNat_flagByte_decide_eq_one (Nat.mod_lt _ (by decide))]

/-- The bit shifted out to the left is the quotient by 128 (R141). -/
theorem toNat_flagByte_shlOut (b : Byte) : (flagByte (shlOut b)).toNat = b.toNat / 128 := by
  rw [shlOut, BitVec.getLsbD, Nat.testBit_eq_decide_div_mod_eq,
    toNat_flagByte_decide_eq_one (Nat.mod_lt _ (by decide)), Nat.mod_eq_of_lt (by omega)]

/-- An instruction that writes `a - b` and then whether there was no borrow (R138, R140). -/
theorem exists_next_of_exec_sub {i : Instr} {s : State} {x : Reg} {a b : Byte}
    (h : exec i s = .next ((s.setV x (a - b)).setFlag (noBorrow a b)).advance) :
    ∃ t, exec i s = .next t ∧ t.pc = s.pc + 2 ∧
      (x ≠ 15 → ((t.getV x).toNat : Int) = ((a.toNat : Int) - b.toNat) % 256) ∧
      t.getV 15 = (if a.toNat ≥ b.toNat then 1 else 0) ∧ OnlyChanges s t [.v x, .v 15, .pc] := by
  obtain ⟨t, ht, hpc, hx, hflag, hframe⟩ := exists_next_of_exec_setFlag h
  refine ⟨t, ht, hpc, fun hne => ?_, ?_, hframe⟩
  · rw [hx hne, toNat_sub_eq_emod]
  · rw [hflag, noBorrow, flagByte_decide]

/-! ### The random byte -/

/-- CXNN writes the byte drawn, masked, in the state after the draw (R142). -/
theorem exec_rnd (x : Reg) (nn : Byte) (s : State) :
    exec (.rnd x nn) s = .next ((randomByte s).2.setV x ((randomByte s).1 &&& nn)).advance := rfl

/-- A cycle on CXNN draws the byte the host gave it (R226). -/
theorem cycle_rnd {x : Reg} {nn : Byte} {s : State} (r : Byte) (hd : decode s.opcodeAtPc = .instr (.rnd x nn)) :
    cycle (some r) s = .next (endCycle ((fetched (some r) s).setV x (r &&& nn)).advance) := by
  rw [cycle_eq, hd, execDecoded, exec_rnd, randomByte_given (fetched_randomIn (some r) s), mapNext]

/-! ### A cycle on an unused word of family 8 -/

/-- The words `8XYn` that stand for no instruction (R144). -/
theorem decode_unknown_of_unused_family8 {x y n : Nat} {w : Word} (hx : x < 16) (hy : y < 16)
    (hn : n ∈ [0x8, 0x9, 0xA, 0xB, 0xC, 0xD, 0xF]) (hw : w.toNat = 0x8000 + 0x100 * x + 0x10 * y + n) :
    decode w = .unknown w := by
  have hlt : n < 16 := by simp at hn; omega
  have hlow : w.toNat % 0x10 = n := by omega
  exact (unknownOpcodesAreExactlyTheListed w).2.mpr (.inr (.inl ⟨by omega, hlow ▸ hn⟩))

/-- A cycle on an UNKNOWN opcode reports it and keeps every register (R77, R213). -/
theorem exists_next_of_cycle_unknown {s : State} {op : Word} (r : Option Byte) (hd : decode s.opcodeAtPc = .unknown op) :
    ∃ t, cycle r s = .next t ∧ ∀ k : Reg, t.getV k = s.getV k := by
  refine ⟨endCycle (raise .unknownOpcode (fetched r s)).advance, by rw [cycle_eq, hd]; rfl, fun k => ?_⟩
  have hfetched : (fetched r s).getV k = s.getV k := fetched_onlyChanges r s (.v k) (by simp)
  simpa using hfetched

/-! ### The statements -/

/-- Settles O40: 6XNN is one register write. -/
theorem loadImmediateWritesRegister : Obligations.LoadImmediateWritesRegister := fun x nn _ =>
  ⟨decode_ofNat rfl (by simp [encode]), exists_next_of_exec_setV (i := .ldByte x nn) rfl⟩

/-- Settles O41: 7XNN is one register write, of the sum. -/
theorem addImmediateWrapsWithoutFlag : Obligations.AddImmediateWrapsWithoutFlag := by
  intro x nn s
  obtain ⟨t, ht, hx, hframe⟩ := exists_next_of_exec_setV (i := .addByte x nn) (s := s) rfl
  exact ⟨decode_ofNat rfl (by simp [encode]), t, ht, by rw [hx, BitVec.toNat_add], hframe⟩

/-- Settles O42: 8XY0 is one register write. -/
theorem copyRegister : Obligations.CopyRegister := fun x y _ =>
  ⟨decode_ofNat rfl (by simp [encode]), exists_next_of_exec_setV (i := .ldReg x y) rfl⟩

/-- Settles O43: the three results, each before `logicFlag`. -/
theorem bitwiseResultsAndLogicFlag : Obligations.BitwiseResultsAndLogicFlag := by
  intro x y s i b n h
  simp only [List.mem_cons, Prod.mk.injEq, List.not_mem_nil, or_false] at h
  obtain ⟨rfl, rfl, rfl⟩ | ⟨rfl, rfl, rfl⟩ | ⟨rfl, rfl, rfl⟩ := h <;>
    exact ⟨decode_ofNat rfl (by simp [encode]), exists_next_of_exec_logicFlag rfl⟩

/-- Settles O44: 8XY4 writes the sum, then the carry of the old operands. -/
theorem addRegistersWithCarry : Obligations.AddRegistersWithCarry := by
  intro x y s
  obtain ⟨t, ht, hpc, hx, hflag, hframe⟩ := exists_next_of_exec_setFlag (i := .addReg x y) (s := s) rfl
  refine ⟨decode_ofNat rfl (by simp [encode]; omega), t, ht, hpc, fun hne => ?_, ?_, hframe⟩
  · rw [hx hne, BitVec.toNat_add]
  · rw [hflag, addCarry, flagByte_decide]

/-- Settles O45: 8XY5 and 8XY7 are one subtraction, of the operands in either order. -/
theorem subtractRegistersWithBorrow : Obligations.SubtractRegistersWithBorrow := by
  intro x y s i a b n h
  simp only [List.mem_cons, Prod.mk.injEq, List.not_mem_nil, or_false] at h
  obtain ⟨rfl, rfl, rfl, rfl⟩ | ⟨rfl, rfl, rfl, rfl⟩ := h <;>
    exact ⟨decode_ofNat rfl (by simp [encode]), exists_next_of_exec_sub rfl⟩

/-- Settles O46: both shifts of the source, and the bit each shifts out. -/
theorem shiftsByOneWithBitOut : Obligations.ShiftsByOneWithBitOut := by
  intro x y s b hb
  obtain rfl : b = s.shiftSource x y := hb
  refine ⟨decode_ofNat rfl (by simp [encode]; omega), decode_ofNat rfl (by simp [encode]; omega),
    exists_next_of_exec_setFlag_toNat (i := .shr x y) rfl ?right (toNat_flagByte_shrOut _),
    exists_next_of_exec_setFlag_toNat (i := .shl x y) rfl ?left (toNat_flagByte_shlOut _)⟩
  case right => rw [BitVec.toNat_ushiftRight, Nat.shiftRight_one]
  case left => rw [BitVec.toNat_shiftLeft, Nat.shiftLeft_eq, Nat.mul_comm]

/-- Settles O47: what is drawn, by whether the host gave a byte, and the cycle that is given one. -/
theorem randomByteMasked : Obligations.RandomByteMasked := by
  intro x nn s
  refine ⟨decode_ofNat rfl (by simp [encode]), ⟨_, (randomByte s).1, exec_rnd x nn s, by simp, fun q hq => ?given,
    fun hnone => ?free, ?pc, ?frame⟩, fun r hd => ⟨_, cycle_rnd r hd, by simp⟩⟩
  case given => rw [randomByte_given hq]
  case free => rw [randomByte_free hnone]; exact ⟨rfl, rfl⟩
  case pc => exact congrArg (· + 2) (randomByte_onlyChanges s .pc (by simp))
  case frame => exact onlyChanges_mono (exec_onlyChanges (exec_rnd x nn s)) (by simp [Instr.frame])

/-- Settles O8: the word is UNKNOWN, and so the cycle keeps the registers. -/
theorem unused8XYnWritesNoRegister : Obligations.Unused8XYnWritesNoRegister := by
  intro x y n r s hn hop
  have hd : decode s.opcodeAtPc = .unknown s.opcodeAtPc :=
    decode_unknown_of_unused_family8 x.isLt y.isLt hn (by rw [hop, BitVec.toNat_ofNat]; omega)
  exact ⟨hd, exists_next_of_cycle_unknown r hd⟩

end Sys2Proof.Machine

/-! PROOFS. Index and memory (R160 to R166): the writes of I, with and without a flag, and the accesses from I on, the bytes they
move, their report and what they leave of the state. -/

namespace Sys2Proof.Machine

/-! ### Writes of I -/

/-- An instruction that executes as one write of I leaves the number there (R160, R162). -/
theorem exists_next_of_exec_setI {i : Instr} {s : State} {w : Word} {n : Nat} (h : exec i s = .next (s.setI w).advance)
    (hw : w.toNat = n) :
    ∃ t, exec i s = .next t ∧ t.i.toNat = n ∧ t.pc = s.pc + 2 ∧ OnlyChanges s t [.i, .pc] :=
  ⟨_, h, hw, rfl, onlyChanges_mono ((onlyChanges_refl s []).setI w).advance (by simp)⟩

/-- The glyph's address does not wrap, since the font ends below 0x1000 (R162, R241). -/
theorem toNat_glyphAddress (s : State) (x : Reg) :
    (s.glyphAddress x).toNat = s.params.fontBase.val + 5 * ((s.getV x).toNat % 16) := by
  have hbase := s.params.fontBase.isLt
  have hnibble : (s.getV x &&& 0xF).toNat = (s.getV x).toNat % 16 := Nat.and_two_pow_sub_one_eq_mod _ 4
  rw [State.glyphAddress, hnibble, BitVec.toNat_ofNat]
  omega

theorem State.postIncrement_i_of_ldstIncI {s : State} (h : s.params.ldstIncI = true) (x : Reg) :
    (s.postIncrement x).i.toNat = (s.i.toNat + x.val + 1) % 0x10000 := by
  have hx := x.isLt
  simp only [State.postIncrement, h, if_true, State.setI_i, BitVec.toNat_add, BitVec.toNat_ofNat]
  omega

theorem State.postIncrement_of_not_ldstIncI {s : State} (h : s.params.ldstIncI = false) (x : Reg) :
    s.postIncrement x = s := by
  simp [State.postIncrement, h]

/-! ### Accesses from I on -/

/-- Offsets from I below 0x1000 reach different cells when they differ, whatever I is (R166). -/
theorem byteAt_memWrite_indexPlus (s t : State) (v : Byte) {j k : Nat} (hj : j < 0x1000) (hk : k < 0x1000) :
    (memWrite (s.indexPlus j) v t).byteAt (s.indexPlus k) = if k = j then v else t.byteAt (s.indexPlus k) := by
  have hcell : s.indexPlus k % 0x1000 = s.indexPlus j % 0x1000 ↔ k = j := by
    unfold State.indexPlus
    omega
  rw [byteAt_memWrite, if_congr hcell rfl rfl]

/-- Three writes from I on are one report of three accesses (R163). -/
theorem bcd_reportsRange (s : State) (a b c : Byte) :
    ReportsRange s.i.toNat 3 s
      (memWrite (s.indexPlus 2) c (memWrite (s.indexPlus 1) b (memWrite (s.indexPlus 0) a s))) := by
  have hone := memWrite_reportsRange (s.indexPlus 0) a s
  have htwo : ReportsRange s.i.toNat 2 s (memWrite (s.indexPlus 1) b (memWrite (s.indexPlus 0) a s)) :=
    reportsRange_succ hone rfl rfl
  exact reportsRange_succ htwo rfl rfl

theorem toNat_bcdHundreds (b : Byte) : (bcdHundreds b).toNat = b.toNat / 100 := Nat.mod_eq_of_lt (by omega)

theorem toNat_bcdTens (b : Byte) : (bcdTens b).toNat = b.toNat / 10 % 10 := Nat.mod_eq_of_lt (by omega)

theorem toNat_bcdUnits (b : Byte) : (bcdUnits b).toNat = b.toNat % 10 := Nat.mod_eq_of_lt (by omega)

/-- What FX55 and FX65 share: after accesses that keep pc, I and the parameters, I moves on as `LDST_INC_I` says, and
pc after it (R164, R165). -/
theorem postIncrement_advance_spec {s t : State} {n : Nat} (hpc : t.pc = s.pc) (hi : t.i = s.i)
    (hparams : t.params = s.params) (hreport : ReportsRange s.i.toNat n s t) (x : Reg) :
    (t.postIncrement x).advance.pc = s.pc + 2 ∧ ReportsRange (s.indexPlus 0) n s (t.postIncrement x).advance ∧
      (s.params.ldstIncI = true → (t.postIncrement x).advance.i.toNat = (s.i.toNat + x.val + 1) % 0x10000) ∧
      (s.params.ldstIncI = false → (t.postIncrement x).advance.i = s.i) := by
  refine ⟨by simp [hpc], reportsRange_congr hreport (by simp) (by simp), fun hinc => ?moves, fun hinc => ?stays⟩
  case moves => rw [← hi]; exact State.postIncrement_i_of_ldstIncI (hparams ▸ hinc) x
  case stays => rw [State.postIncrement_of_not_ldstIncI (hparams ▸ hinc)]; exact hi

/-! ### The statements -/

/-- Settles O48: ANNN is one write of I. -/
theorem loadIndexImmediate : Obligations.LoadIndexImmediate := fun nnn _ =>
  ⟨decode_ofNat rfl (by simp [encode]), exists_next_of_exec_setI (i := .ldI nnn) rfl (toNat_zext16 (by decide) nnn)⟩

/-- Settles O50: FX29 is one write of I. -/
theorem indexOfFontGlyph : Obligations.IndexOfFontGlyph := fun x s =>
  ⟨decode_ofNat rfl (by simp [encode]; omega), exists_next_of_exec_setI (i := .ldF x) rfl (toNat_glyphAddress s x)⟩

/-- Settles O49: FX1E writes the sum, then, under `FX1E_VF`, whether the exact sum is above 0xFFF. -/
theorem addToIndexWithFlag : Obligations.AddToIndexWithFlag := by
  intro x s
  have hexec : exec (.addI x) s =
      .next ((s.setI (s.i + zext16 (s.getV x))).indexFlag (indexCarry s.i (s.getV x))).advance := rfl
  have hframe := exec_onlyChanges hexec
  refine ⟨decode_ofNat rfl (by simp [encode]; omega), _, hexec, ?sum, by simp, fun hflag => ⟨?carry, ?frame⟩,
    fun hflag => ?noFlag⟩
  case sum => simp
  case carry => simp [State.getV_indexFlag, hflag, indexCarry, flagByte_decide]
  case frame | noFlag => exact onlyChanges_mono hframe (by simp [Instr.frame, hflag])

/-- Settles O51: FX33 is three writes, to three different cells. -/
theorem bcdStoresThreeDigits : Obligations.BcdStoresThreeDigits := by
  intro x s
  have hexec : exec (.ldB x) s = .next (memWrite (s.indexPlus 2) (bcdUnits (s.getV x))
      (memWrite (s.indexPlus 1) (bcdTens (s.getV x)) (memWrite (s.indexPlus 0) (bcdHundreds (s.getV x)) s))).advance := rfl
  refine ⟨decode_ofNat rfl (by simp [encode]; omega), _, hexec, ?hundreds, ?tens, ?units, by simp [memWrite], ?report,
    onlyChanges_mono (exec_onlyChanges hexec) ?frame⟩
  case hundreds => simp [byteAt_memWrite_indexPlus, toNat_bcdHundreds]
  case tens => simp [byteAt_memWrite_indexPlus, toNat_bcdTens]
  case units => simp [byteAt_memWrite_indexPlus, toNat_bcdUnits]
  case report => exact reportsRange_congr (bcd_reportsRange s _ _ (bcdUnits (s.getV x))) rfl rfl
  case frame => simp +contextual [Instr.frame, State.indexPlus, or_imp]

/-- Settles O52: FX55 is the stores, then the move of I. -/
theorem storeRegistersFromIndex : Obligations.StoreRegistersFromIndex := by
  intro x s
  have hexec : exec (.storeRegs x) s = .next ((storeUpTo (x.val + 1) s).postIncrement x).advance := rfl
  obtain ⟨hkept, hstores, -⟩ := storeUpTo_spec (x.val + 1) (by omega) s
  obtain ⟨hpc, hreport, hmoves, hstays⟩ := postIncrement_advance_spec (hkept .pc (by simp [storedCells]))
    (hkept .i (by simp [storedCells])) (hkept .params (by simp [storedCells])) hstores x
  refine ⟨decode_ofNat rfl (by simp [encode]; omega), _, hexec, fun k hk => byteAt_of_exec_storeRegs hexec hk, hpc,
    hreport, hmoves, hstays, onlyChanges_mono (exec_onlyChanges hexec) ?frame⟩
  case frame => simp +contextual [Instr.frame, State.indexPlus, or_imp]

/-- Settles O53: FX65 is the loads, then the move of I. -/
theorem loadRegistersFromIndex : Obligations.LoadRegistersFromIndex := by
  intro x s
  have hexec : exec (.loadRegs x) s = .next ((loadUpTo (x.val + 1) s).postIncrement x).advance := rfl
  obtain ⟨hkept, hloads, hregs⟩ := loadUpTo_spec (x.val + 1) (by omega) s
  obtain ⟨hpc, hreport, hmoves, hstays⟩ := postIncrement_advance_spec (hkept .pc nofun nofun) (hkept .i nofun nofun)
    (hkept .params nofun nofun) hloads x
  refine ⟨decode_ofNat rfl (by simp [encode]; omega), _, hexec, fun k hk => ?loaded, fun k hk => ?kept, hpc,
    hreport, hmoves, hstays, onlyChanges_mono (exec_onlyChanges hexec) ?frame⟩
  case loaded =>
    have hlt : k.val < x.val + 1 := Nat.lt_succ_of_le hk
    simp [hregs, hlt, State.indexPlus]
  case kept =>
    have hge : ¬ k.val < x.val + 1 := Nat.not_lt.mpr hk
    simp [hregs, hge]
  case frame => simp +contextual [Instr.frame, or_imp]

end Sys2Proof.Machine

/-! PROOFS. Display (R180 to R183): CLS, the framebuffer and the flag after one draw of a sprite, and the second draw of it,
which undoes the first. -/

namespace Sys2Proof.Machine

/-! ### CLS -/

theorem Framebuffer.clear_getElem (px : Fin 64) (py : Fin 32) : Framebuffer.clear[py.val][px.val] = false := by
  simp [Framebuffer.clear]

/-- Settles O54: CLS is one write of the framebuffer, then `requestRender`. -/
theorem clsClearsTheFramebuffer : Obligations.ClsClearsTheFramebuffer := by
  refine ⟨rfl, fun s => ⟨_, rfl, fun y x => ?cleared, rfl, rfl, ?frame⟩⟩
  case cleared => exact Framebuffer.clear_getElem x y
  case frame => exact onlyChanges_mono (exec_onlyChanges (i := .cls) rfl) (by simp [Instr.frame])

/-! ### One draw (R182) -/

/-- A collision is a pixel that is on and that the sprite covers. -/
theorem drawRows_collides_iff (x y : Reg) (n : Nibble) (s : State) :
    (drawRows (s.spriteX x) (s.spriteY y) n.toNat s).2 = true ↔
      ∃ (px : Fin 64) (py : Fin 32), s.fb[py.val][px.val] = true ∧ s.spriteCovers x y n px py = true := by
  obtain ⟨-, -, -, hcol⟩ := drawRows_spec _ _ (spriteX_lt s x) (spriteY_lt s y) s n.toNat (by omega)
  simp only [hcol, spriteCovers_eq, ← Framebuffer.get_eq]
  constructor
  · rintro ⟨px, py, hpx, hpy, hon, hcovers⟩
    exact ⟨⟨px, hpx⟩, ⟨py, hpy⟩, hon, hcovers⟩
  · rintro ⟨px, py, hon, hcovers⟩
    exact ⟨px.val, py.val, px.isLt, py.isLt, hon, hcovers⟩

/-- DXYN is the sprite loop, then VF, the render request and pc. -/
theorem exec_drw (x y : Reg) (n : Nibble) (s : State) :
    exec (.drw x y n) s =
      .next ((drawRows (s.spriteX x) (s.spriteY y) n.toNat s).1.setFlag
        (drawRows (s.spriteX x) (s.spriteY y) n.toNat s).2).requestRender.advance := rfl

section
variable {x y : Reg} {n : Nibble} {s t : State}

theorem fb_of_exec_drw (h : exec (.drw x y n) s = .next t) (px : Fin 64) (py : Fin 32) :
    t.fb[py.val][px.val] = (s.fb[py.val][px.val] ^^ s.spriteCovers x y n px py) := by
  obtain ⟨-, -, hfb, -⟩ := drawRows_spec _ _ (spriteX_lt s x) (spriteY_lt s y) s n.toNat (by omega)
  cases h
  rw [← Framebuffer.get_eq, ← Framebuffer.get_eq, spriteCovers_eq]
  exact hfb px.val py.val px.isLt py.isLt

theorem flag_of_exec_drw (h : exec (.drw x y n) s = .next t) :
    t.getV 15 = if ∃ (px : Fin 64) (py : Fin 32),
      s.fb[py.val][px.val] = true ∧ s.spriteCovers x y n px py = true then 1 else 0 := by
  cases h
  simp only [State.getV_advance, State.getV_requestRender, State.getV_setFlag, if_true, flagByte, drawRows_collides_iff]

theorem reportsRange_of_exec_drw (h : exec (.drw x y n) s = .next t) : ReportsRange (s.indexPlus 0) n.toNat s t := by
  obtain ⟨-, hreport, -⟩ := drawRows_spec _ _ (spriteX_lt s x) (spriteY_lt s y) s n.toNat (by omega)
  cases h
  exact reportsRange_congr hreport rfl rfl

theorem onlyChanges_of_exec_drw (h : exec (.drw x y n) s = .next t) :
    OnlyChanges s t [.fb, .v 15, .renderReq, .pc, .errors] :=
  onlyChanges_mono (exec_onlyChanges h) (by simp [Instr.frame])

end

/-- Settles O55: a pixel that is on is turned off exactly when the sprite covers it. -/
theorem drawTogglesTheSpriteAndFlagsCollision : Obligations.DrawTogglesTheSpriteAndFlagsCollision := by
  intro x y n s
  have hexec := exec_drw x y n s
  have hfb := fb_of_exec_drw hexec
  have hflag := flag_of_exec_drw hexec
  refine ⟨decode_ofNat rfl ?word, _, hexec, hfb, fun ⟨px, py, hon, hoff⟩ => ?collision, fun hkept => ?noCollision, rfl,
    ?pc, reportsRange_of_exec_drw hexec, onlyChanges_of_exec_drw hexec⟩
  case word => simp [encode]
  case collision =>
    rw [hfb, hon] at hoff
    rw [hflag, if_pos ⟨px, py, hon, by simpa using hoff⟩]
  case noCollision =>
    rw [hflag, if_neg]
    rintro ⟨px, py, hon, hcovers⟩
    have hoff := hfb px py
    rw [hkept px py hon, hon, hcovers] at hoff
    exact absurd hoff (by decide)
  case pc => exact congrArg (· + 2) (drawRows_onlyChanges x y n s .pc (by simp))

/-! ### Two draws (R183) -/

/-- A draw reads the corner, I and the sprite's bytes, and leaves them all when neither coordinate register is VF. -/
theorem spriteCovers_of_exec_drw {x y : Reg} {n : Nibble} {s t : State} (hx : x ≠ 15) (hy : y ≠ 15)
    (h : exec (.drw x y n) s = .next t) (px : Fin 64) (py : Fin 32) :
    t.spriteCovers x y n px py = s.spriteCovers x y n px py := by
  have hframe := onlyChanges_of_exec_drw h
  have hvx : t.getV x = s.getV x := hframe (.v x) (by simp [hx])
  have hvy : t.getV y = s.getV y := hframe (.v y) (by simp [hy])
  have hX : t.spriteX x = s.spriteX x := by rw [State.spriteX, hvx, State.spriteX]
  have hY : t.spriteY y = s.spriteY y := by rw [State.spriteY, hvy, State.spriteY]
  have hi : t.i = s.i := hframe .i (by simp)
  have hbytes := byteAt_of_same_cells fun c => hframe (.mem c) (by simp)
  rw [spriteCovers_eq, spriteCovers_eq, hX, hY, rowsCover, hi, hbytes, rowsCover]

/-- A byte that is not 0 has a 1 bit among its eight columns (R180). -/
theorem exists_column_of_ne_zero {b : Byte} (hb : b ≠ 0) : ∃ c < 8, b.getLsbD (7 - c) = true := by
  by_contra hnone
  push Not at hnone
  refine hb (BitVec.eq_of_getLsbD_eq fun j hj => ?_)
  have hbit := hnone (7 - j) (by omega)
  rw [show 7 - (7 - j) = j by omega] at hbit
  simpa using hbit

/-- The bit at column `c` of row `k` lies on the cell at these offsets from the corner, with wraparound (R182). -/
theorem spriteCovers_offset (s : State) (x y : Reg) {n : Nibble} {c k : Nat} (hc : c < 8) (hk : k < n.toNat)
    (hbit : (s.byteAt (s.indexPlus k)).getLsbD (7 - c) = true) :
    s.spriteCovers x y n (Fin.ofNat 64 (s.spriteX x + c)) (Fin.ofNat 32 (s.spriteY y + k)) = true := by
  have hX := spriteX_lt s x
  have hY := spriteY_lt s y
  have hcol : ((s.spriteX x + c) % 64 + 64 - s.spriteX x) % 64 = c := by omega
  have hrow : ((s.spriteY y + k) % 32 + 32 - s.spriteY y) % 32 = k := by omega
  simp [State.spriteCovers, fbWidth, fbHeight, hcol, hrow, hc, hk, hbit]

theorem exists_spriteCovers_of_byte_ne_zero {s : State} (x y : Reg) {n : Nibble} {k : Nat} (hk : k < n.toNat)
    (hbyte : s.byteAt (s.indexPlus k) ≠ 0) :
    ∃ (px : Fin 64) (py : Fin 32), s.spriteCovers x y n px py = true := by
  obtain ⟨c, hc, hbit⟩ := exists_column_of_ne_zero hbyte
  exact ⟨_, _, spriteCovers_offset s x y hc hk hbit⟩

/-- Settles O56: both draws toggle the same pixels; on a clear framebuffer the first turns them on and the second finds
them on. -/
theorem drawingTwiceCancels : Obligations.DrawingTwiceCancels := by
  intro x y n s t u hx hy ht hu
  have hcovers := spriteCovers_of_exec_drw hx hy ht
  refine ⟨Framebuffer.ext_get fun px py => ?cancels, fun hclear => ⟨?first, fun ⟨k, hk, hbyte⟩ => ?second⟩⟩
  case cancels =>
    simp only [Framebuffer.get_eq, fb_of_exec_drw hu, fb_of_exec_drw ht, hcovers, Bool.xor_assoc, Bool.xor_self,
      Bool.xor_false]
  case first =>
    rw [flag_of_exec_drw ht, if_neg]
    rintro ⟨px, py, hon, -⟩
    rw [hclear] at hon
    exact Bool.false_ne_true hon
  case second =>
    obtain ⟨px, py, hcovered⟩ := exists_spriteCovers_of_byte_ne_zero x y hk hbyte
    have hon : t.fb[py.val][px.val] = true := by rw [fb_of_exec_drw ht, hclear, hcovered, Bool.false_xor]
    rw [flag_of_exec_drw hu, if_pos ⟨px, py, hon, (hcovers px py).trans hcovered⟩]

end Sys2Proof.Machine

/-! PROOFS. Timers and keys (R190 to R197): the skips on a key, the wait for one, the moves of the timers, and what one tick and a
run of ticks leave. -/

namespace Sys2Proof.Machine

/-! ### Keys -/

/-- The key a skip reads is the low nibble of VX (R190, R191). -/
theorem State.keyIndex_eq {s : State} {x : Reg} {k : Fin 16} (h : k.val = (s.getV x).toNat % 16) : s.keyIndex x = k := by
  have hnibble : (s.getV x &&& 0xF).toNat = (s.getV x).toNat % 16 := Nat.and_two_pow_sub_one_eq_mod _ 4
  apply Fin.ext
  rw [State.keyIndex, hnibble, Fin.val_ofNat, Nat.mod_mod, h]

/-- The search goes through the keys by rising code, so it answers the pressed key with none pressed below it (R193). -/
theorem State.leastKey_eq_some {s : State} {k : Fin 16} (hk : s.keyDown k = true)
    (hleast : ∀ j, j < k → s.keyDown j = false) : s.leastKey = some k := by
  refine List.find?_eq_some_iff_getElem.mpr ⟨hk, k.val, by simp, by simp, fun j hj => ?_⟩
  simpa using hleast ⟨j, hj.trans k.isLt⟩ hj

theorem State.leastKey_eq_none {s : State} (h : ∀ k, s.keyDown k = false) : s.leastKey = none :=
  List.find?_eq_none.mpr fun k _ => by simp [h k]

theorem exec_ldVxK_of_some {x : Reg} {s : State} {k : Fin 16} (h : s.leastKey = some k) :
    exec (.ldVxK x) s = .next (s.setV x (BitVec.ofNat 8 k.val)).advance := by
  rw [exec, execLdVxK, h]

theorem exec_ldVxK_of_none {x : Reg} {s : State} (h : s.leastKey = none) :
    exec (.ldVxK x) s = .next s.reportWaiting := by
  rw [exec, execLdVxK, h]

/-- Settles O59: with a key pressed FX0A is one register write, with none it is `reportWaiting`. -/
theorem waitForKeyTakesTheLeastOrHolds : Obligations.WaitForKeyTakesTheLeastOrHolds := by
  refine fun x s => ⟨decode_ofNat rfl (by simp [encode]; omega), fun k hk hleast => ?taken, fun hnone => ?held⟩
  case taken =>
    obtain ⟨t, ht, hx, hframe⟩ := exists_next_of_exec_setV (exec_ldVxK_of_some (x := x) (State.leastKey_eq_some hk hleast))
    exact ⟨t, ht, by rw [hx, BitVec.toNat_ofNat]; omega, hframe⟩
  case held =>
    exact ⟨s.reportWaiting, exec_ldVxK_of_none (State.leastKey_eq_none hnone), rfl, rfl,
      (onlyChanges_refl s []).reportWaiting⟩

/-- Settles O57: the skips of EX9E and EXA1, on the key and on its negation. -/
theorem skipsOnKey : Obligations.SkipsOnKey := by
  intro x k s hk
  have hkey : s.keyDown (s.keyIndex x) = s.keyDown k := by rw [State.keyIndex_eq hk]
  exact ⟨decode_ofNat rfl (by simp [encode]; omega), decode_ofNat rfl (by simp [encode]; omega),
    exists_next_of_exec_skipIf (i := .skp x) rfl (by rw [hkey]),
    exists_next_of_exec_skipIf (i := .sknp x) rfl (by rw [hkey, Bool.not_eq_true'])⟩

/-! ### Timer registers -/

/-- Settles O58: FX07 is one register write, FX15 one write of DT and FX18 one write of ST. -/
theorem timerRegistersMove : Obligations.TimerRegistersMove := by
  refine fun x s => ⟨decode_ofNat rfl (by simp [encode]; omega), decode_ofNat rfl (by simp [encode]; omega),
    decode_ofNat rfl (by simp [encode]; omega), exists_next_of_exec_setV (i := .ldVxDt x) rfl,
    ⟨(s.setDt (s.getV x)).advance, rfl, rfl, rfl, ?dt⟩, ⟨(s.setSt (s.getV x)).advance, rfl, rfl, rfl, ?st⟩⟩
  case dt => exact onlyChanges_mono (exec_onlyChanges (i := .ldDtVx x) rfl) (by simp [Instr.frame])
  case st => exact onlyChanges_mono (exec_onlyChanges (i := .ldStVx x) rfl) (by simp [Instr.frame])

/-! ### Ticks -/

theorem tick_dt_toNat (s : State) : (tick s).dt.toNat = s.dt.toNat - 1 := decrementTimer_toNat s.dt

theorem tick_st_toNat (s : State) : (tick s).st.toNat = s.st.toNat - 1 := decrementTimer_toNat s.st

theorem tick_beepReq_iff (s : State) : (tick s).beepReq = true ↔ (tick s).st.toNat > 0 := decide_eq_true_iff

theorem tick_onlyChanges (s : State) : OnlyChanges s (tick s) [.dt, .st, .beepReq] := by
  intro p hp
  cases p <;> simp [Part.same, tick] at hp ⊢ <;> rfl

/-- Settles O27: TICK is `tick`, which decrements both timers and sets `beep_req` from the new ST. -/
theorem tickDecrementsTimersAndSetsBeep : Obligations.TickDecrementsTimersAndSetsBeep := fun s h =>
  ⟨tick s, whenInited_eq_next.mpr ⟨h, rfl⟩, tick_dt_toNat s, tick_st_toNat s, tick_beepReq_iff s, tick_onlyChanges s⟩

theorem iterate_tick_dt_toNat (n : Nat) (s : State) : (tick^[n] s).dt.toNat = s.dt.toNat - n := by
  induction n with
  | zero => rfl
  | succ n ih => rw [Function.iterate_succ_apply', tick_dt_toNat, ih, Nat.sub_sub]

theorem iterate_tick_st_toNat (n : Nat) (s : State) : (tick^[n] s).st.toNat = s.st.toNat - n := by
  induction n with
  | zero => rfl
  | succ n ih => rw [Function.iterate_succ_apply', tick_st_toNat, ih, Nat.sub_sub]

/-- Only the last tick's `beep_req` stays, and it says whether ST is still positive (R196). -/
theorem iterate_tick_beepReq_iff {n : Nat} (hn : 0 < n) (s : State) :
    (tick^[n] s).beepReq = true ↔ n < s.st.toNat := by
  obtain ⟨m, rfl⟩ := Nat.exists_eq_succ_of_ne_zero hn.ne'
  rw [Function.iterate_succ_apply', tick_beepReq_iff, ← Function.iterate_succ_apply' tick, iterate_tick_st_toNat]
  exact Nat.sub_pos_iff_lt

theorem iterate_tick_onlyChanges (n : Nat) (s : State) : OnlyChanges s (tick^[n] s) [.dt, .st, .beepReq] := by
  induction n with
  | zero => exact onlyChanges_refl s _
  | succ n ih =>
    rw [Function.iterate_succ_apply']
    exact onlyChanges_trans ih (tick_onlyChanges _)

/-- Settles O28, each part by induction on the number of ticks or from the last tick. -/
theorem timersCountDownOverTicks : Obligations.TimersCountDownOverTicks := fun n s =>
  ⟨iterate_tick_dt_toNat n s, iterate_tick_st_toNat n s, fun hn => iterate_tick_beepReq_iff hn s,
    iterate_tick_onlyChanges n s⟩

end Sys2Proof.Machine

/-! PROOFS. Errors and results (R210 to R213, R222, R225): what an instruction reports, what a cycle's record holds at its
end, the sticky log, the invariant of every step, and the transactions on one key and on the render request. -/

namespace Sys2Proof
open Machine

/-! ### What the decoded outcome raises and accesses -/

/-- The class that UNKNOWN, RET or CALL raises when it executes in `s`; the other instructions report their accesses only
(R213). -/
def Decoded.raises (s : State) : Decoded → BitVec 4
  | .unknown _ => ErrorClass.unknownOpcode.bit
  | .instr .ret => if s.sp = 0 then ErrorClass.stackUnderflow.bit else 0
  | .instr (.call _) => if s.sp = 16 then ErrorClass.stackOverflow.bit else 0
  | .instr _ => 0

/-- The number of bytes from I that the outcome accesses (R56). -/
def Decoded.accessLength : Decoded → Nat
  | .unknown _ => 0
  | .instr i => i.accessLength

/-- Each bit of `Decoded.raises` has one cause, and MemoryOutOfBounds is not among them (R210, R213). -/
theorem Decoded.raises_bits (s : State) (d : Decoded) :
    ((d.raises s).getLsbD 0 = true ↔ ∃ op, d = .unknown op) ∧
    ((d.raises s).getLsbD 1 = true ↔ (∃ nnn, d = .instr (.call nnn)) ∧ s.sp = 16) ∧
    ((d.raises s).getLsbD 2 = true ↔ d = .instr .ret ∧ s.sp = 0) ∧
    (d.raises s).getLsbD 3 = false := by
  unfold Decoded.raises
  split
  next op => simp
  next => by_cases hsp : s.sp = 0 <;> simp [hsp]
  next nnn => by_cases hsp : s.sp = 16 <;> simp [hsp]
  next i hret hcall =>
    exact ⟨by simp, by simpa using fun nnn e => (hcall nnn e).elim, by simpa using fun e => (hret e).elim, by simp⟩

end Sys2Proof

namespace Sys2Proof.Machine

/-! ### What an instruction reports -/

/-- The last of `n` accesses from `a` on is above 0xFFF (R52, R53). -/
def rangeAbove (a n : Nat) : Bool := decide (0 < n ∧ a + (n - 1) > 0xFFF)

theorem rangeAbove_iff {a n : Nat} : rangeAbove a n = true ↔ 0 < n ∧ a + (n - 1) > 0xFFF := decide_eq_true_iff

@[simp] theorem rangeAbove_zero (a : Nat) : rangeAbove a 0 = false := rfl

theorem rangeAbove_accessLength {a : Nat} {d : Decoded} :
    rangeAbove a d.accessLength = true ↔
      ∃ i, d = .instr i ∧ 0 < i.accessLength ∧ a + (i.accessLength - 1) > 0xFFF := by
  cases d <;> simp [rangeAbove_iff, Decoded.accessLength]

/-- From `s` to `t` the result records the classes `e` and what `ReportsRange` says of the `n` accesses from `a` on
(R13, R211). -/
def ReportsErrors (e : BitVec 4) (a n : Nat) (s t : State) : Prop :=
  t.result.err = s.result.err ||| e ||| (if rangeAbove a n then 8#4 else 0#4) ∧
  t.result.oobAddr =
    if rangeAbove a n && !s.result.err.getLsbD 3 then BitVec.ofNat 17 (max a 0x1000) else s.result.oobAddr

theorem Reports.reportsErrors {e : ErrorClass} {s t : State} (h : Reports e s t) (a : Nat) :
    ReportsErrors e.bit a 0 s t := by
  obtain ⟨herr, -, hoob⟩ := h
  simp [ReportsErrors, herr, hoob]

theorem ReportsRange.reportsErrors {a n : Nat} {s t : State} (h : ReportsRange a n s t) : ReportsErrors 0 a n s t := by
  unfold ReportsRange at h
  by_cases habove : 0 < n ∧ a + (n - 1) > 0xFFF
  · rw [if_pos habove] at h
    obtain ⟨herr, -, hoob⟩ := h
    rw [ReportsErrors, rangeAbove_iff.mpr habove, herr, hoob]
    exact ⟨by simp, by cases s.result.err.getLsbD 3 <;> rfl⟩
  · rw [if_neg habove] at h
    obtain ⟨herr, hoob, -⟩ := h
    simp [ReportsErrors, rangeAbove, habove, herr, hoob]

/-- A state with the same errors reports nothing. -/
theorem reportsErrors_of_same {s t : State} (h : Part.errors.same s t) (a : Nat) : ReportsErrors 0 a 0 s t :=
  ReportsRange.reportsErrors (by simpa [ReportsRange] using h)

/-- Every instruction but RET and CALL reports its accesses from I on and nothing else (R56, R213). -/
theorem exec_reportsRange {i : Instr} {s t : State} (h : exec i s = .next t) (hret : i ≠ .ret)
    (hcall : ∀ nnn, i ≠ .call nnn) : ReportsRange s.i.toNat i.accessLength s t := by
  cases i with
  | ret => exact absurd rfl hret
  | call nnn => exact absurd rfl (hcall nnn)
  | drw x y n => exact reportsRange_of_exec_drw h
  | ldB x =>
    cases h
    exact reportsRange_congr (bcd_reportsRange s _ _ (bcdUnits (s.getV x))) rfl rfl
  | storeRegs x =>
    cases h
    obtain ⟨-, hreport, -⟩ := storeUpTo_spec (x.val + 1) (by omega) s
    exact reportsRange_congr hreport (by simp) (by simp)
  | loadRegs x =>
    cases h
    obtain ⟨-, hreport, -⟩ := loadUpTo_spec (x.val + 1) (by omega) s
    exact reportsRange_congr hreport (by simp) (by simp)
  | _ =>
    have hsame : Part.errors.same s t := exec_onlyChanges h _ fun hf => by
      simpa [Part.writer, Instr.accessLength] using writer_of_mem_frame _ hf
    simpa [ReportsRange, Instr.accessLength] using hsame

/-- RET reports an empty stack and nothing else (R101, R213). -/
theorem returnToCaller_reportsErrors (s : State) (a : Nat) :
    ReportsErrors (if s.sp = 0 then ErrorClass.stackUnderflow.bit else 0) a 0 s (returnToCaller s) := by
  by_cases hsp : s.sp = 0
  · rw [if_pos hsp, returnToCaller_of_empty s hsp]
    exact (raise_reports .stackUnderflow s).1.reportsErrors a
  · rw [if_neg hsp]
    have hsame : Part.errors.same s (returnToCaller s) :=
      returnToCaller_onlyChanges s .errors (by simp [Instr.frame, hsp])
    exact reportsErrors_of_same hsame a

/-- CALL reports a full stack and nothing else (R103, R213). -/
theorem callTo_reportsErrors (nnn : Imm12) (s : State) (a : Nat) :
    ReportsErrors (if s.sp = 16 then ErrorClass.stackOverflow.bit else 0) a 0 s (callTo (zext16 nnn) s) := by
  by_cases hsp : s.sp = 16
  · rw [if_pos hsp, callTo_of_full _ s hsp]
    exact (raise_reports .stackOverflow s).1.reportsErrors a
  · rw [if_neg hsp]
    have hfree : s.sp.val < 16 := Decidable.byContradiction fun hfull => hsp (s.sp_eq_full hfull)
    have hsame : Part.errors.same s (callTo (zext16 nnn) s) :=
      callTo_onlyChanges nnn s .errors (by simp [Instr.frame, hfree])
    exact reportsErrors_of_same hsame a

theorem execDecoded_reportsErrors {d : Decoded} {s t : State} (h : execDecoded d s = .next t) :
    ReportsErrors (d.raises s) s.i.toNat d.accessLength s t := by
  unfold Decoded.raises
  split
  next op => cases h; exact (raise_reports .unknownOpcode s).1.reportsErrors s.i.toNat
  next => cases h; exact returnToCaller_reportsErrors s s.i.toNat
  next nnn => cases h; exact callTo_reportsErrors nnn s s.i.toNat
  next i hret hcall => exact (exec_reportsRange h hret hcall).reportsErrors

/-! ### The record at the end of a cycle -/

@[simp] theorem fetched_i (r : Option Byte) (s : State) : (fetched r s).i = s.i := by simp [fetched_eq]

@[simp] theorem fetched_sp (r : Option Byte) (s : State) : (fetched r s).sp = s.sp := by simp [fetched_eq]

/-- The fetch reports its first address above 0xFFF: pc itself, or 0x1000 from pc = 0xFFF (R72, R211). -/
theorem fetched_oobAddr (r : Option Byte) (s : State) :
    (fetched r s).result.oobAddr = if s.pc.toNat ≥ 0xFFF then BitVec.ofNat 17 (max s.pc.toNat 0x1000) else 0 := by
  obtain ⟨-, hoob⟩ := (fetch_reportsRange (beginCycle r s)).reportsErrors
  have hbound : rangeAbove s.pc.toNat 2 = true ↔ s.pc.toNat ≥ 0xFFF := rangeAbove_iff.trans (by omega)
  change (fetch (beginCycle r s)).2.result.oobAddr = _
  simpa [hbound, CycleResult.blank] using hoob

section
variable {r : Option Byte} {s t : State}

theorem cycle_execDecoded (h : cycle r s = .next t) :
    ∃ u, execDecoded (decode s.opcodeAtPc) (fetched r s) = .next u ∧ t = endCycle u := by
  rw [cycle_eq, mapNext_eq_next] at h
  obtain ⟨u, hu, rfl⟩ := h
  exact ⟨u, hu, rfl⟩

/-- The classes in a cycle's result: the fetch's, those raised, and the accesses' (R213). -/
theorem cycle_err (h : cycle r s = .next t) :
    t.result.err = (if s.pc.toNat ≥ 0xFFF then 8#4 else 0#4) ||| (decode s.opcodeAtPc).raises s |||
      (if rangeAbove s.i.toNat (decode s.opcodeAtPc).accessLength then 8#4 else 0#4) := by
  obtain ⟨u, hu, rfl⟩ := cycle_execDecoded h
  obtain ⟨herr, -⟩ := execDecoded_reportsErrors hu
  have hraises : (decode s.opcodeAtPc).raises (fetched r s) = (decode s.opcodeAtPc).raises s := by
    simp only [Decoded.raises, fetched_sp]
  rwa [fetched_err, hraises, fetched_i] at herr

/-- The address in a cycle's result: the fetch's, else the accesses' (R211). -/
theorem cycle_oobAddr (h : cycle r s = .next t) :
    t.result.oobAddr = if s.pc.toNat ≥ 0xFFF then BitVec.ofNat 17 (max s.pc.toNat 0x1000)
      else if rangeAbove s.i.toNat (decode s.opcodeAtPc).accessLength then BitVec.ofNat 17 (max s.i.toNat 0x1000)
      else 0 := by
  obtain ⟨u, hu, rfl⟩ := cycle_execDecoded h
  obtain ⟨-, hoob⟩ := execDecoded_reportsErrors hu
  rw [fetched_err, fetched_oobAddr, fetched_i] at hoob
  by_cases hpc : s.pc.toNat ≥ 0xFFF <;> simpa [hpc] using hoob

/-- Only the fetch and the accesses can set the bit of MemoryOutOfBounds, since `raises` never has it. -/
theorem cycle_err_memoryOutOfBounds (h : cycle r s = .next t) :
    t.result.err.getLsbD 3 = true ↔
      s.pc.toNat ≥ 0xFFF ∨ rangeAbove s.i.toNat (decode s.opcodeAtPc).accessLength = true := by
  obtain ⟨-, -, -, hraises⟩ := (decode s.opcodeAtPc).raises_bits s
  rw [cycle_err h, BitVec.getLsbD_or, BitVec.getLsbD_or, hraises]
  by_cases hpc : s.pc.toNat ≥ 0xFFF <;> cases rangeAbove s.i.toNat (decode s.opcodeAtPc).accessLength <;> simp [hpc]

end

theorem decode_eq_unknown_iff {op : Word} : decode op = .unknown op ↔ ∃ op', decode op = .unknown op' := by
  refine ⟨fun h => ⟨op, h⟩, fun ⟨op', h⟩ => ?_⟩
  exact (exists_instr_or_unknown op).resolve_left fun ⟨i, hi⟩ => nomatch h.symm.trans hi

/-- Settles O11: the bits of `cycle_err`, and `cycle_oobAddr`, whose addresses fit in 17 bits. -/
theorem cycleErrorsHaveExactlyTheirCauses : Obligations.CycleErrorsHaveExactlyTheirCauses := by
  intro r s t h
  obtain ⟨hunknown, hoverflow, hunderflow, -⟩ := (decode s.opcodeAtPc).raises_bits s
  have hrange := cycle_err_memoryOutOfBounds h
  have hoob := cycle_oobAddr h
  have hbit (k : Nat) (hk : k < 3) : t.result.err.getLsbD k = ((decode s.opcodeAtPc).raises s).getLsbD k := by
    rw [cycle_err h]
    interval_cases k <;> split_ifs <;> simp
  have htoNat (w : Word) : (BitVec.ofNat 17 (max w.toNat 0x1000)).toNat = max w.toNat 0x1000 := by
    rw [BitVec.toNat_ofNat]
    omega
  refine ⟨?unknown, ?overflow, ?underflow, ?range, fun hpc => ?fetch, fun hpc herr => ?data, fun herr => ?none⟩
  case unknown => rw [hbit 0 (by decide), hunknown, decode_eq_unknown_iff]
  case overflow => rw [hbit 1 (by decide), hoverflow]
  case underflow => rw [hbit 2 (by decide), hunderflow]
  case range => rw [hrange, rangeAbove_accessLength]
  case fetch => rw [hoob, if_pos hpc, htoNat]
  case data =>
    have hpc : ¬ s.pc.toNat ≥ 0xFFF := Nat.not_le.mpr hpc
    rw [hoob, if_neg hpc, if_pos ((hrange.mp herr).resolve_left hpc), htoNat]
  case none =>
    have hnone : ¬ (s.pc.toNat ≥ 0xFFF ∨ _) := fun hcause => absurd (hrange.mpr hcause) (by rw [herr]; decide)
    obtain ⟨hpc, hdata⟩ := not_or.mp hnone
    rw [hoob, if_neg hpc, if_neg hdata]

/-! ### `at`, `op` and `waiting` -/

section
variable {i : Instr} {s t : State}

/-- Only FX0A sets `waiting`, and only while it holds (R193). -/
theorem exec_waiting (h : exec i s = .next t) (hclear : s.result.waiting = false) :
    t.result.waiting = true ↔ (∃ x, i = .ldVxK x) ∧ ∀ k : Fin 16, s.keyDown k = false := by
  by_cases hi : ∃ x, i = .ldVxK x
  · obtain ⟨x, rfl⟩ := hi
    obtain ⟨hleast, hup⟩ | ⟨k, hleast, hdown⟩ := leastKey_cases s
    · rw [exec_ldVxK_of_none hleast] at h
      cases h
      exact iff_of_true rfl ⟨⟨x, rfl⟩, hup⟩
    · rw [exec_ldVxK_of_some hleast] at h
      cases h
      exact iff_of_false (by simp [hclear]) fun ⟨_, hup⟩ => by simp [hup] at hdown
  · have hsame : t.result.waiting = s.result.waiting :=
      exec_onlyChanges h .waiting fun hmem => hi (writer_of_mem_frame _ hmem)
    simp [hsame, hclear, hi]

/-- No instruction writes `at` or `op` (R76). -/
theorem execDecoded_record {d : Decoded} (h : execDecoded d s = .next t) : Part.record.same s t := by
  cases d with
  | instr i => exact exec_onlyChanges h .record fun hmem => writer_of_mem_frame _ hmem
  | unknown op => cases h; exact ⟨rfl, rfl⟩

theorem execDecoded_waiting {d : Decoded} (h : execDecoded d s = .next t) (hclear : s.result.waiting = false) :
    t.result.waiting = true ↔ (∃ x, d = .instr (.ldVxK x)) ∧ ∀ k : Fin 16, s.keyDown k = false := by
  cases d with
  | instr i => simpa using exec_waiting h hclear
  | unknown op => cases h; simp [hclear]

end

/-- Settles O10: the record is `fetched`'s, and only FX0A adds to it. -/
theorem cycleRecordsAddressOpcodeAndWaiting : Obligations.CycleRecordsAddressOpcodeAndWaiting := by
  intro r s t h
  obtain ⟨u, hu, rfl⟩ := cycle_execDecoded h
  obtain ⟨hat, hop⟩ := execDecoded_record hu
  have hkeys (k : Fin 16) : (fetched r s).keyDown k = s.keyDown k := by simp [State.keyDown, fetched_eq]
  have hwaiting := execDecoded_waiting hu (fetched_waiting r s)
  simp only [hkeys] at hwaiting
  exact ⟨hat.trans (fetched_pcAt r s), hop.trans (fetched_op r s), hwaiting⟩

/-! ### The sticky log (R212) -/

/-- A transaction but INIT leaves the log alone or is a cycle, which adds to it. -/
theorem transact_errLog_or {x : Transaction} {s t : State} (h : transact x s = .next t) (hinit : x ≠ .init) :
    s.errLog ||| t.errLog = t.errLog := by
  by_cases hlog : t.errLog = s.errLog
  · rw [hlog, BitVec.or_self]
  · obtain ⟨⟨r, rfl⟩, -⟩ := errLog_changed h hinit hlog
    rw [cycle_errLog (whenInited_eq_next.mp h).2, ← BitVec.or_assoc, BitVec.or_self]

/-- Settles O12: a cycle adds its own errors, and INIT leaves the reset state's empty log. -/
theorem errLogAccumulatesAndOnlyInitClearsIt : Obligations.ErrLogAccumulatesAndOnlyInitClearsIt :=
  ⟨fun _ _ _ h => cycle_errLog h, fun _ _ _ h hinit => transact_errLog_or h hinit, fun _ _ h => by cases h; rfl⟩

/-! ### The canonical form of memory -/

/-- Memory is in its canonical form. -/
def State.Canonical (s : State) : Prop := Memory.wf s.params s.mem = true

theorem State.canonical_congr {s t : State} (hm : t.mem = s.mem) (hp : t.params = s.params) :
    t.Canonical ↔ s.Canonical := by rw [State.Canonical, hm, hp, State.Canonical]

theorem State.Canonical.memWrite {s : State} (h : s.Canonical) (a : Nat) (v : Byte) : (memWrite a v s).Canonical :=
  wf_memWrite a v s h

theorem State.Canonical.storeUpTo {s : State} (h : s.Canonical) (n : Nat) : (storeUpTo n s).Canonical := by
  induction n with
  | zero => exact h
  | succ n ih => exact ih.memWrite _ _

@[simp] theorem loadUpTo_mem (n : Nat) (s : State) : (loadUpTo n s).mem = s.mem := by
  induction n with
  | zero => rfl
  | succ n ih => simp [loadUpTo, ih]

@[simp] theorem loadUpTo_params (n : Nat) (s : State) : (loadUpTo n s).params = s.params := by
  induction n with
  | zero => rfl
  | succ n ih => simp [loadUpTo, ih]

@[simp] theorem drawRows_mem (x0 y0 n : Nat) (s : State) : (drawRows x0 y0 n s).1.mem = s.mem := by
  induction n with
  | zero => rfl
  | succ n ih => simp [drawRows, ih]

@[simp] theorem drawRows_params (x0 y0 n : Nat) (s : State) : (drawRows x0 y0 n s).1.params = s.params := by
  induction n with
  | zero => rfl
  | succ n ih => simp [drawRows, ih]

@[simp] theorem randomByte_mem (s : State) : (randomByte s).2.mem = s.mem := by
  unfold randomByte; split <;> rfl

@[simp] theorem randomByte_params (s : State) : (randomByte s).2.params = s.params := by
  unfold randomByte; split <;> rfl

section
variable {s t : State}

theorem execLdVxK_canonical {x : Reg} (h : execLdVxK x s = .next t) (hs : s.Canonical) : t.Canonical := by
  unfold execLdVxK at h
  cases hleast : s.leastKey with
  | some k => rw [hleast] at h; cases h; exact hs
  | none => rw [hleast] at h; cases h; exact hs

/-- FX33 and FX55 write memory through `memWrite`; the other instructions do not touch the list. -/
theorem exec_canonical {i : Instr} (h : exec i s = .next t) (hs : s.Canonical) : t.Canonical := by
  cases i with
  | ldVxK x => exact execLdVxK_canonical h hs
  | ldB x => cases h; exact ((hs.memWrite _ _).memWrite _ _).memWrite _ _
  | storeRegs x => cases h; exact (State.canonical_congr (by simp) (by simp)).mpr (hs.storeUpTo (x.val + 1))
  | _ => cases h; exact (State.canonical_congr (by simp) (by simp)).mpr hs

theorem cycle_canonical {r : Option Byte} (h : cycle r s = .next t) (hs : s.Canonical) : t.Canonical := by
  have hfetched : (fetched r s).Canonical := (State.canonical_congr (by simp [fetched_eq]) (by simp [fetched_eq])).mpr hs
  obtain ⟨u, rfl, ⟨i, -, hu⟩ | ⟨-, rfl⟩⟩ := cycle_next_cases h
  · exact exec_canonical (t := u) hu hfetched
  · exact hfetched

theorem loadProgram_canonical (bytes : List Byte) (hs : s.Canonical) : (loadProgram bytes s).Canonical := by
  unfold loadProgram
  split
  · exact hs
  · rw [loadBytes_eq]
    exact wf_loadBytes bytes s entry hs

/-! ### The invariant -/

theorem State.Inv.canonical (hs : s.Inv) : s.Canonical :=
  let ⟨hmem, _⟩ := hs
  hmem

/-- Besides memory the invariant reads the result and the log only. -/
theorem State.Inv.of_canonical (hs : s.Inv) (ht : t.Canonical) (hr : t.result = s.result) (hl : t.errLog = s.errLog) :
    t.Inv := by
  obtain ⟨-, hrest⟩ := hs
  rw [State.Inv, hr, hl]
  exact ⟨ht, hrest⟩

/-- A cycle's log holds its own errors, and its `oob_addr` is one of two addresses of 16 bits, or 0 (R211, R212). -/
theorem cycle_inv {r : Option Byte} (h : cycle r s = .next t) (hs : s.Canonical) : t.Inv := by
  obtain ⟨-, -, -, -, hfetch, hdata, hnone⟩ := cycleErrorsHaveExactlyTheirCauses r s t h
  refine ⟨cycle_canonical h hs, ?log, hnone, fun herr => ?address⟩
  case log =>
    rw [cycle_errLog h]
    ext k hk
    simp +contextual
  case address =>
    by_cases hpc : s.pc.toNat ≥ 0xFFF
    · rw [hfetch hpc]
      omega
    · rw [hdata (Nat.not_le.mp hpc) herr]
      omega

theorem initMachine_inv (s : State) : (initMachine s).Inv :=
  ⟨Memory.wf_nil, by simp [initMachine, State.reset, CycleResult.blank], fun _ => rfl,
    fun herr => absurd herr (by simp [initMachine, State.reset, CycleResult.blank])⟩

theorem loadProgram_result (bytes : List Byte) (s : State) : (loadProgram bytes s).result = s.result := by
  unfold loadProgram
  split
  · rfl
  · rw [loadBytes_eq]

theorem loadProgram_errLog (bytes : List Byte) (s : State) : (loadProgram bytes s).errLog = s.errLog := by
  unfold loadProgram
  split
  · rfl
  · rw [loadBytes_eq]

theorem transact_inv {x : Transaction} (h : transact x s = .next t) (hs : s.Inv) : t.Inv := by
  cases x with
  | init => cases h; exact initMachine_inv s
  | load bytes =>
    obtain ⟨-, h⟩ := whenInited_eq_next.mp h
    cases h
    exact hs.of_canonical (loadProgram_canonical bytes hs.canonical) (loadProgram_result bytes s)
      (loadProgram_errLog bytes s)
  | cycle r => exact cycle_inv (whenInited_eq_next.mp h).2 hs.canonical
  | tick | keySet k v | renderAck =>
    obtain ⟨-, h⟩ := whenInited_eq_next.mp h
    cases h
    exact hs.of_canonical hs.canonical rfl rfl

end

/-- Settles O13: taking a transaction from the schedule touches nothing the invariant reads, and performing it keeps the
invariant. -/
theorem everyStepKeepsTheInvariant : Obligations.EveryStepKeepsTheInvariant := by
  intro s t hs h
  refine transact_inv h ?_
  rw [nextTransaction_snd]
  exact hs

/-! ### KEY_SET and RENDER_ACK -/

theorem keyDown_keySet (k j : Fin 16) (v : Bool) (s : State) :
    (keySet k v s).keyDown j = if j = k then v else s.keyDown j := by
  rw [State.keyDown, keySet, Vector.getElem_set, State.keyDown]
  exact if_congr (by rw [eq_comm, Fin.ext_iff]) rfl rfl

theorem keySet_onlyChanges (k : Fin 16) (v : Bool) (s : State) : OnlyChanges s (keySet k v s) [.key] := by
  intro p hp
  cases p <;> simp [Part.same, keySet] at hp ⊢ <;> rfl

theorem renderAck_onlyChanges (s : State) : OnlyChanges s (renderAck s) [.renderReq] := by
  intro p hp
  cases p <;> simp [Part.same, renderAck] at hp ⊢ <;> rfl

/-- Settles O29: after INIT both transactions are performed. -/
theorem keySetAndRenderAckChangeOneThing : Obligations.KeySetAndRenderAckChangeOneThing := fun k v s h =>
  ⟨⟨keySet k v s, whenInited_eq_next.mpr ⟨h, rfl⟩, by simp [keyDown_keySet],
      fun j hj => by simp [keyDown_keySet, hj], keySet_onlyChanges k v s⟩,
    ⟨renderAck s, whenInited_eq_next.mpr ⟨h, rfl⟩, rfl, renderAck_onlyChanges s⟩⟩

end Sys2Proof.Machine

/-! PROOFS. Reset and hazards (R240 to R253): what INIT leaves, what is refused before it, what LOAD copies, the order of the
host's transactions, and the jump to its own address. -/

namespace Sys2Proof.Machine

/-! ### INIT -/

theorem initMachine_byteAt (s : State) {a : Nat} (h : a < 0x1000) : (initMachine s).byteAt a = resetByte s.params a := by
  rw [State.byteAt, mask_eq_mod, Nat.mod_eq_of_lt h]
  rfl

/-- The 80 bytes from FONT_BASE are the font (R241, R243). -/
theorem resetByte_font (p : Params) (k : Fin 80) : resetByte p (p.fontBase.val + k.val) = p.font[k.val] := by
  rw [resetByte, if_pos (Nat.le_add_right _ _), Nat.add_sub_cancel_left, List.getD_eq_getElem _ _ (by simp)]
  exact Vector.getElem_toList _

/-- Settles O25: the reset table, with memory by `resetByte`; FONT_BASE leaves room for the font. -/
theorem initLeavesTheResetTable : Obligations.InitLeavesTheResetTable := by
  intro s
  refine ⟨initMachine s, rfl, ?v, rfl, rfl, ?stack, rfl, rfl, rfl, ?fb, ?key, rfl, rfl, rfl, fun k => ?font,
    fun a ha hout => ?zeros, rfl⟩
  case v => simp [State.getV, initMachine, State.reset]
  case stack => simp [initMachine, State.reset]
  case fb => simp [initMachine, State.reset]
  case key => simp [State.keyDown, initMachine, State.reset]
  case font => rw [initMachine_byteAt s (by omega), resetByte_font]
  case zeros => rw [initMachine_byteAt s ha, resetByte_of_not_font s.params hout]

theorem whenInited_of_not_inited {s : State} (h : s.inited = false) (r : Result) :
    whenInited s r = .refused .beforeInit := if_neg (by simp [h])

/-- Settles O16: every transaction but INIT is performed only `whenInited`. -/
theorem beforeInitOnlyInitIsPerformed : Obligations.BeforeInitOnlyInitIsPerformed := by
  refine fun x s h => ⟨fun hx => ?_, initMachine s, rfl, rfl⟩
  cases x with
  | init => exact absurd rfl hx
  | load _ | cycle _ | tick | keySet _ _ | renderAck => exact whenInited_of_not_inited h _

/-! ### LOAD -/

section
variable {bytes : List Byte} (s : State)

/-- A LOAD that fails writes its answer and nothing else (R244). -/
theorem loadProgram_of_too_large (h : bytes.length > 3584) :
    loadProgram bytes s = { s with loadResult := some .programTooLarge } := if_pos h

theorem loadProgram_of_fits (h : bytes.length ≤ 3584) :
    loadProgram bytes s = { loadBytes 0x200 bytes s with pc := 0x200, loadResult := some .ok } := if_neg (Nat.not_lt.mpr h)

theorem loadProgram_of_too_large_onlyChanges (h : bytes.length > 3584) :
    OnlyChanges s (loadProgram bytes s) [.loadResult] := by
  rw [loadProgram_of_too_large s h]
  intro p hp
  cases p <;> simp [Part.same] at hp ⊢ <;> rfl

theorem byteAt_loadProgram (h : bytes.length ≤ 3584) {k : Nat} (hk : k < bytes.length) :
    (loadProgram bytes s).byteAt (0x200 + k) = bytes[k] := by
  rw [loadProgram_of_fits s h]
  refine (byteAt_loadBytes bytes s 0x200 (0x200 + k) (by omega) (by omega)).trans ?_
  simp [hk]

/-- The cells of a range that does not wrap are its addresses (R52). -/
theorem mem_storedCells_of_range {a n : Nat} {c : Fin 4096} (hlo : a ≤ c.val) (hhi : c.val < a + n) :
    Part.mem c ∈ storedCells a n := by
  refine List.mem_map.mpr ⟨c.val - a, List.mem_range.mpr (by omega), congrArg Part.mem (Fin.ext ?_)⟩
  rw [cell_val]
  omega

/-- LOAD changes bytes in the image's range only, and of the rest pc and its answer (R244). -/
theorem loadProgram_onlyChanges (bytes : List Byte) :
    OnlyChanges s (loadProgram bytes s) (storedCells 0x200 bytes.length ++ [.pc, .loadResult]) := by
  intro p hp
  by_cases hw : p.hostWriter (.load bytes)
  · cases p with
    | mem c =>
      by_contra hne
      obtain ⟨hlo, hhi, -⟩ := load_range_of_byteAt_ne hne
      exact hp (List.mem_append_left _ (mem_storedCells_of_range hlo hhi))
    | _ => simp [Part.hostWriter] at hw hp
  · exact loadProgram_same_part bytes s hw

end

/-- Settles O26: after INIT LOAD is `loadProgram`, in its two cases. -/
theorem loadCopiesTheImageOrRejectsIt : Obligations.LoadCopiesTheImageOrRejectsIt := by
  intro bytes s hs
  have hload : transact (.load bytes) s = .next (loadProgram bytes s) := whenInited_eq_next.mpr ⟨hs, rfl⟩
  refine ⟨fun hlarge => ⟨loadProgram bytes s, hload, ?_, loadProgram_of_too_large_onlyChanges s hlarge⟩,
    fun hfits => ⟨loadProgram bytes s, hload, ?_, ?_, fun k hk => byteAt_loadProgram s hfits hk,
      loadProgram_onlyChanges s bytes⟩⟩
  · rw [loadProgram_of_too_large s hlarge]
  · rw [loadProgram_of_fits s hfits]
  · rw [loadProgram_of_fits s hfits]

/-! ### The order of the transactions -/

theorem nextTransaction_of_cons {s : State} {x : Transaction} {xs : List Transaction} (h : s.pending = x :: xs) :
    nextTransaction s = (x, { s with pending := xs }) := by
  simp [nextTransaction, h]

theorem nextTransaction_of_nil {s : State} (h : s.pending = []) : nextTransaction s = (.cycle none, s) := by
  simp [nextTransaction, h]

/-- The schedule is written by no transaction and is in no instruction's frame. -/
theorem transact_pending {x : Transaction} {s t : State} (h : transact x s = .next t) : t.pending = s.pending :=
  transact_same_part h (p := .pending) id fun _ _ hmem => writer_of_mem_frame _ hmem

/-- Settles O30: a step is the transaction that `nextTransaction` takes. -/
theorem transactionsRunInTheHostsOrder : Obligations.TransactionsRunInTheHostsOrder := fun s =>
  ⟨fun x xs h => by rw [step, hostStep, nextTransaction_of_cons h],
    fun h => by rw [step, hostStep, nextTransaction_of_nil h],
    fun _ _ h => transact_pending h⟩

/-! ### The jump to its own address (R253) -/

theorem exec_jp (nnn : Imm12) (s : State) : exec (.jp nnn) s = .next (s.jumpTo (zext16 nnn)) := rfl

theorem State.jumpTo_self (s : State) : s.jumpTo s.pc = s := rfl

/-- Its execution leaves the state the fetch left, since pc is the target already. -/
theorem cycle_of_jump_to_self {nnn : Imm12} {s : State} (hd : decode s.opcodeAtPc = .instr (.jp nnn))
    (hpc : s.pc = zext16 nnn) (r : Option Byte) : cycle r s = .next (endCycle (fetched r s)) := by
  have htarget : zext16 nnn = (fetched r s).pc := by simp [fetched_eq, hpc]
  rw [cycle_eq, hd, execDecoded, exec_jp, htarget, State.jumpTo_self, mapNext]

/-- The word of JP is its family's nibble over its target. -/
theorem opcode_of_decode_jp {op : Word} {nnn : Imm12} (h : decode op = .instr (.jp nnn)) : op = 0x1000 ||| zext16 nnn := by
  obtain ⟨-, hop⟩ := encodeOfDecodedIsTheWord op (.jp nnn) h
  apply BitVec.eq_of_toNat_eq
  rw [← hop, encode, layoutNnn_toNat, BitVec.toNat_or, toNat_zext16 (by decide)]
  exact Nat.two_pow_add_eq_or_of_lt (i := 12) nnn.isLt 1

/-- Settles O38: below 0xFFF the fetch reports nothing, and the cycle ends as the fetch left it. -/
theorem jumpToSelfChangesOnlyTheResult : Obligations.JumpToSelfChangesOnlyTheResult := by
  intro nnn r s hd hself hlt
  have hpc : s.pc = zext16 nnn := BitVec.eq_of_toNat_eq (hself.trans (toNat_zext16 (by decide) nnn).symm)
  have herr : (fetched r s).result.err = 0 := by rw [fetched_err, if_neg (by omega)]; rfl
  refine ⟨endCycle (fetched r s), cycle_of_jump_to_self hd hpc r, ?pcAt, ?op, herr, ?log, ?frame⟩
  case pcAt => simp [fetched_eq]
  case op => simpa [hpc] using opcode_of_decode_jp hd
  case log => simp [fetched_errLog, herr]
  case frame => exact onlyChanges_mono (fetched_onlyChanges r s).endCycle (by simp)

end Sys2Proof.Machine
